-- ==== Sys2Proof/Word.lean ====
section
/-! DEFINITION. The byte and the keyed words of the SIMP framing engine.

The block has no instruction words (spec/30_encoding.md, opening): what the opcode table encodes are KEYS in six formats
(R74). `OpWord` is one key together with the operands its format carries outside the key. -/

namespace Sys2Proof

/-- A byte, bits numbered from 0 (R8). -/
abbrev Byte := BitVec 8

/-- A key of the opcode table, one constructor per format (R74). -/
inductive OpWord where
  /-- `rx_feed`: the state code in bits 9..8, the received byte in bits 7..0. -/
  | rxFeed (key : BitVec 10)
  /-- `rx_ctrl`: `rx_rst` in bit 1, `rx_valid` in bit 0. -/
  | rxCtrl (key : BitVec 2)
  /-- `tx_cmd`: `cmd_type` is the key, `cmd_seq` and `cmd_payload` are operands (R65). -/
  | txCmd (cmdType : BitVec 2) (seq : Nat) (payload : List Byte)
  /-- `tx_ctrl`: `tx_rst` in bit 3, `cmd_taken` in bit 2, `busy` in bit 1, `out_ready` in bit 0 (DEDUCED, log 13). -/
  | txCtrl (key : BitVec 4)
  /-- `wire_type`: the TYPE byte `body[0]`. -/
  | wireType (typeByte : Byte)
  /-- `esc_seq`: the first wire byte in bits 15..8, the second in bits 7..0. -/
  | escSeq (pair : BitVec 16)
  deriving DecidableEq, Repr

end Sys2Proof
end

