-- ==== Sys2Proof/Config.lean ====
section
/-! DEFINITION. The construction parameters `Cfg` (R5), the default instance `CFG_DEF`, and the free values of the model. -/

namespace Sys2Proof

/-- The checksum algorithm named by the configuration (R5 `CHECK`, R141). Plain data: the function each name stands for is
`Cfg.check` in Machine/Checksum.lean. -/
inductive CheckAlg where
  /-- The default algorithm (R142), two bytes. -/
  | crc16_1021
  /-- The 8-bit sum modulo 256, the example of R146, one byte. -/
  | sum8
  /-- Any other algorithm that meets the contract of R141 at the configured width ("exact algorithm is an implementation choice"): a
  free function of which the contract is known and nothing else, `Config.conformingCheck` (DESIGN CHOICE, log 4, safe). -/
  | conforming (k : Nat)
  /-- Any algorithm that fails the contract of R141 at the configured width, `Config.nonconformingCheck`: a configuration that names
  one fails R6 condition 5 and is refused (log 4). -/
  | nonconforming (k : Nat)
  deriving DecidableEq, Repr

/-- The configuration record, in the spec's own field names (R5). It is fixed at construction (R28). -/
structure Cfg where
  START : Byte
  END : Byte
  ESC : Byte
  MASK : Byte
  SW : Nat
  CW : Nat
  CHECK : CheckAlg
  MAX : Nat
  deriving DecidableEq, Repr

/-- `CFG_DEF` (R5, last column). -/
def cfgDef : Cfg where
  START := 0x7E#8
  END := 0x7D#8
  ESC := 0x7C#8
  MASK := 0x20#8
  SW := 1
  CW := 2
  CHECK := .crc16_1021
  MAX := 64

/-- The contract of R141 on a checksum function of `w` bytes. Property 1 is that it is a function of the byte list. -/
structure MeetsContract (f : List Byte → List Byte) (w : Nat) : Prop where
  /-- Property 2: `len(CHECK(l)) = CW` for every `l`. -/
  width : ∀ l, (f l).length = w
  /-- Property 3: two lists of equal length that differ in exactly one position have different checksums. -/
  detects : ∀ (u v : List Byte) (x y : Byte), x ≠ y → f (u ++ x :: v) ≠ f (u ++ y :: v)

/-- A checksum of `n + 1` bytes whose last byte is the sum: it shows that the contract can be met at every width above 0. -/
def paddedSum (n : Nat) (l : List Byte) : List Byte := List.replicate n 0#8 ++ [l.foldl (· + ·) 0#8]

theorem foldl_add_injective (v : List Byte) : ∀ x y : Byte, v.foldl (· + ·) x = v.foldl (· + ·) y → x = y := by
  induction v with
  | nil => exact fun x y h => h
  | cons b v ih => exact fun x y h => by simpa using ih _ _ h

theorem paddedSum_meetsContract (n : Nat) : MeetsContract (paddedSum n) (n + 1) where
  width l := by simp [paddedSum]
  detects u v x y hxy h := by
    simp only [paddedSum, List.foldl_append, List.foldl_cons, List.append_cancel_left_eq, List.cons.injEq, and_true] at h
    exact hxy (by simpa using foldl_add_injective v _ _ h)

/-- A checksum function of `n + 1` bytes that meets the contract. The default is there so that the type has a member; no algorithm is
known to be it. -/
structure ConformingCheck (n : Nat) where
  fn : List Byte → List Byte := paddedSum n
  contract : MeetsContract fn (n + 1) := by exact paddedSum_meetsContract _
  deriving Inhabited

/-- A checksum function that fails the contract for `w` bytes; the default as above. -/
structure NonconformingCheck (w : Nat) where
  fn : List Byte → List Byte := fun _ => []
  fails : ¬ MeetsContract fn w := by exact fun h => h.detects [] [] 0#8 1#8 (by decide) rfl
  deriving Inhabited

/-- FREE VALUE: the implementation's own algorithm number `k` of `n + 1` bytes that meets the contract. Nothing else constrains it
(R141: "may assume properties 1–3 and nothing more"; log 4). -/
opaque Config.conformingCheck (k n : Nat) : ConformingCheck n

/-- FREE VALUE: the algorithm number `k` that fails the contract for `w` bytes (log 4). -/
opaque Config.nonconformingCheck (k w : Nat) : NonconformingCheck w

/-- FREE VALUE: what cell `i` of `rx.buf` holds before anything wrote it (R33: "unspecified"; log 6). -/
opaque Config.bufPowerOn (i : Nat) : Byte

end Sys2Proof
end

