-- ==== Sys2Proof/Machine/Checksum.lean ====
section
/-! DEFINITION. The Checksum Engine (spec/43_checksum.md): the default CRC, the one-byte sum, and `CHECK` of a configuration. -/

namespace Sys2Proof

/-- One iteration of the inner loop of `CRC16_1021` (R142). -/
def crcBit (crc : BitVec 16) : BitVec 16 :=
  if crc.getLsbD 15 then (crc <<< 1) ^^^ 0x1021#16 else crc <<< 1

/-- `n` iterations of the inner loop. -/
def crcBits : Nat → BitVec 16 → BitVec 16
  | 0, crc => crc
  | n + 1, crc => crcBits n (crcBit crc)

/-- The loop body of `CRC16_1021` for one byte: `crc ^ (zext_16(b) << 8)`, then eight iterations (R142). -/
def crcByte (crc : BitVec 16) (b : Byte) : BitVec 16 :=
  crcBits 8 (crc ^^^ (b.setWidth 16 <<< 8))

/-- The 16-bit value of `CRC16_1021` before it is split (R142, R144). -/
def crc16 (l : List Byte) : BitVec 16 :=
  l.foldl crcByte 0xFFFF#16

/-- The two result bytes of `CRC16_1021`, high byte first (R142, R143). -/
def crc16Bytes (l : List Byte) : List Byte :=
  [(crc16 l).extractLsb' 8 8, (crc16 l).extractLsb' 0 8]

/-- The 8-bit sum modulo 256 (R146). -/
def sum8 (l : List Byte) : Byte :=
  l.foldl (· + ·) 0#8

/-- `CHECK(l)` of a configuration (R5, R141): the named algorithm, of `CW` bytes where it is one of the implementation's own. No
checksum of no bytes meets the contract, so at `CW = 0`, which R6 refuses, `CheckAlg.conforming` names none and gives `[]`. -/
def Cfg.check (c : Cfg) (l : List Byte) : List Byte :=
  match c.CHECK with
  | .crc16_1021 => crc16Bytes l
  | .sum8 => [sum8 l]
  | .conforming k =>
    match c.CW with
    | 0 => []
    | n + 1 => (Config.conformingCheck k n).fn l
  | .nonconforming k => (Config.nonconformingCheck k c.CW).fn l

/-- R141 property 3, single-byte detection: two lists of equal length that differ in exactly one position have different
checksums. -/
def Cfg.DetectsSingleByte (c : Cfg) : Prop :=
  ∀ (u v : List Byte) (x y : Byte), x ≠ y → c.check (u ++ x :: v) ≠ c.check (u ++ y :: v)

end Sys2Proof
end

