-- ==== Sys2Proof/Machine/Escaper.lean ====
section
/-! DEFINITION. The Escaper/Unescaper (spec/40_escaper.md) and the byte classes of R62: pure functions of the configuration. -/

namespace Sys2Proof

/-- `is_reserved(b)` (R80). -/
def Cfg.isReserved (c : Cfg) (b : Byte) : Bool :=
  b == c.START || b == c.END || b == c.ESC

/-- The class of a received byte (R62). -/
inductive ByteClass where
  | cStart
  | cEnd
  | cEsc
  | cData
  deriving DecidableEq, Repr

/-- The class of byte `b` (R62); the three constants are distinct in a well-formed configuration, so the order of the tests
does not matter there. -/
def Cfg.classOf (c : Cfg) (b : Byte) : ByteClass :=
  if b = c.START then .cStart
  else if b = c.END then .cEnd
  else if b = c.ESC then .cEsc
  else .cData

/-- `esc(b)` (R81). -/
def Cfg.escByte (c : Cfg) (b : Byte) : List Byte :=
  if c.isReserved b then [c.ESC, b ^^^ c.MASK] else [b]

/-- `escape(l)` (R82). -/
def Cfg.escape (c : Cfg) (l : List Byte) : List Byte :=
  l.flatMap c.escByte

/-- `unesc(x)` (R83). -/
def Cfg.unesc (c : Cfg) (x : Byte) : Byte :=
  x ^^^ c.MASK

/-- The unescaping half of the deframer as a list function (R84): a byte other than ESC is literal, `ESC, x` is `unesc x`.
`pending` says that an ESC has just been taken. The result is the body bytes and whether an ESC is left pending (R87). -/
def Cfg.unescape (c : Cfg) : (pending : Bool) → List Byte → List Byte × Bool
  | p, [] => ([], p)
  | true, x :: rest => (c.unesc x :: (c.unescape false rest).1, (c.unescape false rest).2)
  | false, x :: rest =>
    if x = c.ESC then c.unescape true rest
    else (x :: (c.unescape false rest).1, (c.unescape false rest).2)

end Sys2Proof
end

