-- ==== Sys2Proof/Machine/Params.lean ====
section
/-! DEFINITION. The constants derived from a configuration (R7) and the well-formedness of a configuration (R6). -/

namespace Sys2Proof

/-- `HDR = 1 + SW + CW`, the minimum body length (R7). -/
def Cfg.HDR (c : Cfg) : Nat := 1 + c.SW + c.CW

/-- `BODY_MAX = HDR + MAX` (R7). -/
def Cfg.BODY_MAX (c : Cfg) : Nat := c.HDR + c.MAX

/-- `FRAME_MAX = 2 + 2 * BODY_MAX` (R7). -/
def Cfg.FRAME_MAX (c : Cfg) : Nat := 2 + 2 * c.BODY_MAX

/-- The three reserved byte values (R7 `RESERVED`). -/
def Cfg.reserved (c : Cfg) : List Byte := [c.START, c.END, c.ESC]

/-- R6 condition 1: the three constants are pairwise distinct. -/
def Cfg.constantsDistinct (c : Cfg) : Bool :=
  c.START != c.END && c.START != c.ESC && c.END != c.ESC

/-- R6 condition 2: the mask differs from each of the three. -/
def Cfg.maskNotReserved (c : Cfg) : Bool := !c.isReserved c.MASK

/-- R6 condition 3: no masked reserved byte is reserved. -/
def Cfg.escapedNotReserved (c : Cfg) : Bool :=
  c.reserved.all fun r => !c.isReserved (r ^^^ c.MASK)

/-- R6 condition 4: the two field widths are 1 or 2. -/
def Cfg.widthsLegal (c : Cfg) : Bool :=
  (c.SW == 1 || c.SW == 2) && (c.CW == 1 || c.CW == 2)

/-- R6 condition 5: the named algorithm returns `CW` bytes and meets R141 (CRC16_1021 at two bytes, R145; the sum at one, R146). -/
def Cfg.checkConforms (c : Cfg) : Bool :=
  match c.CHECK with
  | .crc16_1021 => c.CW == 2
  | .sum8 => c.CW == 1
  | .conforming _ => true
  | .nonconforming _ => false

/-- A configuration from which the block may be built: the five conditions of R6. -/
def Cfg.wf (c : Cfg) : Bool :=
  c.constantsDistinct && c.maskNotReserved && c.escapedNotReserved && c.widthsLegal && c.checkConforms

end Sys2Proof
end

