-- ==== Sys2Proof/Syntax.lean ====
section
/-! DEFINITION. The operations of the block: one constructor per row of spec/opcode_table.json, in the table's order.

A row whose mask leaves key bits free carries them as an operand, so that no bit of a key is dropped. -/

namespace Sys2Proof

/-- The 36 rows of the opcode table. -/
inductive Instr where
  /-- WS.START (R92): START received in WAIT_START. -/
  | wsStart
  /-- WS.END (R93): END received in WAIT_START. -/
  | wsEnd
  /-- WS.ESC (R93): ESC received in WAIT_START. -/
  | wsEsc
  /-- WS.DATA (R93): a byte that is not reserved received in WAIT_START. -/
  | wsData (b : Byte)
  /-- IB.START (R94): START received in IN_BODY. -/
  | ibStart
  /-- IB.END (R95): END received in IN_BODY. -/
  | ibEnd
  /-- IB.ESC (R96): ESC received in IN_BODY. -/
  | ibEsc
  /-- IB.DATA (R97): a byte that is not reserved received in IN_BODY. -/
  | ibData (b : Byte)
  /-- EP.START (R98): START received in ESC_PENDING. -/
  | epStart
  /-- EP.END (R98): END received in ESC_PENDING. -/
  | epEnd
  /-- EP.ESC (R98): ESC received in ESC_PENDING. -/
  | epEsc
  /-- EP.DATA (R98): a byte that is not reserved received in ESC_PENDING. -/
  | epData (b : Byte)
  /-- RX.IDLE (R91): no byte. -/
  | rxIdle
  /-- RX.RESET (R176); `rx_valid` is ignored. -/
  | rxReset (rxValid : Bool)
  /-- FRAME.DATA (R123): `cmd_type = 0`. -/
  | frameData (seq : Nat) (payload : List Byte)
  /-- FRAME.ACK (R124): `cmd_type = 1`. -/
  | frameAck (seq : Nat) (payload : List Byte)
  /-- FRAME.NACK (R125): `cmd_type = 2`. -/
  | frameNack (seq : Nat) (payload : List Byte)
  /-- FRAME.RSVD (R126): `cmd_type = 3`. -/
  | frameRsvd (seq : Nat) (payload : List Byte)
  /-- TX.EMIT (R128). -/
  | txEmit
  /-- TX.HOLD (R129). -/
  | txHold
  /-- TX.IDLE (R130); `out_ready` is ignored. -/
  | txIdle (outReady : Bool)
  /-- TX.RESET (R177); the other three key bits are ignored. -/
  | txReset (others : BitVec 3)
  /-- TYPE.DATA (R57): TYPE byte 0x00. -/
  | typeData
  /-- TYPE.ACK (R57): TYPE byte 0x01. -/
  | typeAck
  /-- TYPE.NACK (R57): TYPE byte 0x02. -/
  | typeNack
  /-- TYPE.RSVD.0 (R104): TYPE byte 0x03. -/
  | typeRsvd0
  /-- TYPE.RSVD.1 (R104): TYPE bytes 0x04 to 0x07. -/
  | typeRsvd1 (low : BitVec 2)
  /-- TYPE.RSVD.2 (R104): TYPE bytes 0x08 to 0x0F. -/
  | typeRsvd2 (low : BitVec 3)
  /-- TYPE.RSVD.3 (R104): TYPE bytes 0x10 to 0x1F. -/
  | typeRsvd3 (low : BitVec 4)
  /-- TYPE.RSVD.4 (R104): TYPE bytes 0x20 to 0x3F. -/
  | typeRsvd4 (low : BitVec 5)
  /-- TYPE.RSVD.5 (R104): TYPE bytes 0x40 to 0x7F. -/
  | typeRsvd5 (low : BitVec 6)
  /-- TYPE.RSVD.6 (R104): TYPE bytes 0x80 to 0xFF. -/
  | typeRsvd6 (low : BitVec 7)
  /-- ESC.START (R60, R69): the pair ESC, START ^ MASK. -/
  | escStart
  /-- ESC.END (R60, R69): the pair ESC, END ^ MASK. -/
  | escEnd
  /-- ESC.ESC (R60, R69): the pair ESC, ESC ^ MASK. -/
  | escEsc
  /-- ESC.NONCANON (R70): the pair ESC, x with x ^ MASK not reserved. -/
  | escNoncanon (x : Byte)
  deriving DecidableEq, Repr

end Sys2Proof
end

