-- ==== Sys2Proof/Decode.lean ====
section
/-! DEFINITION. The decoder of the opcode table's keys, total, rejecting by name, and the encoder written from the same rows.

The rows' `match` values are those of `CFG_DEF`. For another configuration the received-byte keys follow the classes of R62 and
the escape pairs follow R60, with that configuration's constants. -/

namespace Sys2Proof

/-- Why a key is no row of the opcode table. -/
inductive Reject where
  /-- An `rx_feed` key with state code 3 (R20: "never reached"). -/
  | rxStateThree
  /-- The `rx_ctrl` key 01: a byte is present, so the step's row stands in format `rx_feed` (R90). -/
  | rxBytePresent
  /-- A `tx_ctrl` key with `cmd_taken = 1` and no reset: the step's row stands in format `tx_cmd` (R120). -/
  | txCommandTaken
  /-- A sequence id that does not fit the `SW` bytes of its port (R58, R66). -/
  | seqTooWide
  /-- A pair whose first byte is not ESC (R60). -/
  | pairWithoutEsc
  deriving DecidableEq, Repr

/-- The `rx_feed` rows of WAIT_START (R92, R93). -/
def decodeWaitStart (c : Cfg) (b : Byte) : Instr :=
  match c.classOf b with
  | .cStart => .wsStart
  | .cEnd => .wsEnd
  | .cEsc => .wsEsc
  | .cData => .wsData b

/-- The `rx_feed` rows of IN_BODY (R94 to R97). -/
def decodeInBody (c : Cfg) (b : Byte) : Instr :=
  match c.classOf b with
  | .cStart => .ibStart
  | .cEnd => .ibEnd
  | .cEsc => .ibEsc
  | .cData => .ibData b

/-- The `rx_feed` rows of ESC_PENDING (R98). -/
def decodeEscPending (c : Cfg) (b : Byte) : Instr :=
  match c.classOf b with
  | .cStart => .epStart
  | .cEnd => .epEnd
  | .cEsc => .epEsc
  | .cData => .epData b

/-- Format `rx_feed`: the state code selects the group, the byte's class the row (R74, R90). -/
def decodeRxFeed (c : Cfg) (key : BitVec 10) : Except Reject Instr :=
  let code := key.extractLsb' 8 2
  let b := key.extractLsb' 0 8
  if code = 0#2 then .ok (decodeWaitStart c b)
  else if code = 1#2 then .ok (decodeInBody c b)
  else if code = 2#2 then .ok (decodeEscPending c b)
  else .error .rxStateThree

/-- Format `rx_ctrl` (R90, R91, R176). -/
def decodeRxCtrl (key : BitVec 2) : Except Reject Instr :=
  if key.getLsbD 1 then .ok (.rxReset (key.getLsbD 0))
  else if key.getLsbD 0 then .error .rxBytePresent
  else .ok .rxIdle

/-- Format `tx_cmd` (R66). -/
def decodeTxCmd (c : Cfg) (cmdType : BitVec 2) (seq : Nat) (payload : List Byte) : Except Reject Instr :=
  if 256 ^ c.SW ≤ seq then .error .seqTooWide
  else if cmdType = 0#2 then .ok (.frameData seq payload)
  else if cmdType = 1#2 then .ok (.frameAck seq payload)
  else if cmdType = 2#2 then .ok (.frameNack seq payload)
  else .ok (.frameRsvd seq payload)

/-- Format `tx_ctrl`: rows TX.RESET, TX.IDLE, TX.HOLD, TX.EMIT by their `match` and `mask` (log 13). -/
def decodeTxCtrl (key : BitVec 4) : Except Reject Instr :=
  if key.getLsbD 3 then .ok (.txReset (key.extractLsb' 0 3))
  else if key.getLsbD 2 then .error .txCommandTaken
  else if key.getLsbD 1 then .ok (if key.getLsbD 0 then .txEmit else .txHold)
  else .ok (.txIdle (key.getLsbD 0))

/-- Format `wire_type`: the TYPE codes of R57, the reserved range in the table's seven rows (R74). -/
def decodeWireType (b : Byte) : Instr :=
  if b = 0x00#8 then .typeData
  else if b = 0x01#8 then .typeAck
  else if b = 0x02#8 then .typeNack
  else if b = 0x03#8 then .typeRsvd0
  else if b < 0x08#8 then .typeRsvd1 (b.extractLsb' 0 2)
  else if b < 0x10#8 then .typeRsvd2 (b.extractLsb' 0 3)
  else if b < 0x20#8 then .typeRsvd3 (b.extractLsb' 0 4)
  else if b < 0x40#8 then .typeRsvd4 (b.extractLsb' 0 5)
  else if b < 0x80#8 then .typeRsvd5 (b.extractLsb' 0 6)
  else .typeRsvd6 (b.extractLsb' 0 7)

/-- Format `esc_seq`: the three canonical pairs (R60), else the lowest-priority row (R70). -/
def decodeEscSeq (c : Cfg) (pair : BitVec 16) : Except Reject Instr :=
  let x := pair.extractLsb' 0 8
  if pair.extractLsb' 8 8 = c.ESC then
    .ok (match c.classOf (c.unesc x) with
      | .cStart => .escStart
      | .cEnd => .escEnd
      | .cEsc => .escEsc
      | .cData => .escNoncanon x)
  else .error .pairWithoutEsc

/-- The decoder (R74). -/
def decode (c : Cfg) (w : OpWord) : Except Reject Instr :=
  match w with
  | .rxFeed key => decodeRxFeed c key
  | .rxCtrl key => decodeRxCtrl key
  | .txCmd cmdType seq payload => decodeTxCmd c cmdType seq payload
  | .txCtrl key => decodeTxCtrl key
  | .wireType b => .ok (decodeWireType b)
  | .escSeq pair => decodeEscSeq c pair

/-- The `rx_feed` key of a state code and a byte. -/
def rxFeedKey (code : BitVec 2) (b : Byte) : BitVec 10 := code ++ b

/-- The `esc_seq` key of the pair ESC, `x`. -/
def escSeqKey (c : Cfg) (x : Byte) : BitVec 16 := c.ESC ++ x

/-- The encoder: the key of each operation, from the rows of the opcode table (R74), R60 and R66. -/
def encode (c : Cfg) (i : Instr) : OpWord :=
  match i with
  | .wsStart => .rxFeed (rxFeedKey 0#2 c.START)
  | .wsEnd => .rxFeed (rxFeedKey 0#2 c.END)
  | .wsEsc => .rxFeed (rxFeedKey 0#2 c.ESC)
  | .wsData b => .rxFeed (rxFeedKey 0#2 b)
  | .ibStart => .rxFeed (rxFeedKey 1#2 c.START)
  | .ibEnd => .rxFeed (rxFeedKey 1#2 c.END)
  | .ibEsc => .rxFeed (rxFeedKey 1#2 c.ESC)
  | .ibData b => .rxFeed (rxFeedKey 1#2 b)
  | .epStart => .rxFeed (rxFeedKey 2#2 c.START)
  | .epEnd => .rxFeed (rxFeedKey 2#2 c.END)
  | .epEsc => .rxFeed (rxFeedKey 2#2 c.ESC)
  | .epData b => .rxFeed (rxFeedKey 2#2 b)
  | .rxIdle => .rxCtrl 0b00#2
  | .rxReset valid => .rxCtrl (1#1 ++ BitVec.ofBool valid)
  | .frameData seq payload => .txCmd 0#2 seq payload
  | .frameAck seq payload => .txCmd 1#2 seq payload
  | .frameNack seq payload => .txCmd 2#2 seq payload
  | .frameRsvd seq payload => .txCmd 3#2 seq payload
  | .txEmit => .txCtrl 0b0011#4
  | .txHold => .txCtrl 0b0010#4
  | .txIdle outReady => .txCtrl (0#3 ++ BitVec.ofBool outReady)
  | .txReset others => .txCtrl (1#1 ++ others)
  | .typeData => .wireType 0x00#8
  | .typeAck => .wireType 0x01#8
  | .typeNack => .wireType 0x02#8
  | .typeRsvd0 => .wireType 0x03#8
  | .typeRsvd1 low => .wireType (1#6 ++ low)
  | .typeRsvd2 low => .wireType (1#5 ++ low)
  | .typeRsvd3 low => .wireType (1#4 ++ low)
  | .typeRsvd4 low => .wireType (1#3 ++ low)
  | .typeRsvd5 low => .wireType (1#2 ++ low)
  | .typeRsvd6 low => .wireType (1#1 ++ low)
  | .escStart => .escSeq (escSeqKey c (c.START ^^^ c.MASK))
  | .escEnd => .escSeq (escSeqKey c (c.END ^^^ c.MASK))
  | .escEsc => .escSeq (escSeqKey c (c.ESC ^^^ c.MASK))
  | .escNoncanon x => .escSeq (escSeqKey c x)

/-- The key format of a row (the table's `format`). -/
inductive KeyFormat where
  | rxFeed
  | rxCtrl
  | txCmd
  | txCtrl
  | wireType
  | escSeq
  deriving DecidableEq, Repr

/-- One row of the opcode table: format, `match` and `mask`. -/
structure TableRow where
  format : KeyFormat
  matchBits : Nat
  maskBits : Nat
  deriving DecidableEq, Repr

/-- The row of spec/opcode_table.json that each constructor stands for, its `match` and `mask` copied from the table (they are
those of `CFG_DEF`). -/
def Instr.tableRow (i : Instr) : TableRow :=
  match i with
  | .wsStart => ⟨.rxFeed, 0x07E, 0x3FF⟩
  | .wsEnd => ⟨.rxFeed, 0x07D, 0x3FF⟩
  | .wsEsc => ⟨.rxFeed, 0x07C, 0x3FF⟩
  | .wsData _ => ⟨.rxFeed, 0x000, 0x300⟩
  | .ibStart => ⟨.rxFeed, 0x17E, 0x3FF⟩
  | .ibEnd => ⟨.rxFeed, 0x17D, 0x3FF⟩
  | .ibEsc => ⟨.rxFeed, 0x17C, 0x3FF⟩
  | .ibData _ => ⟨.rxFeed, 0x100, 0x300⟩
  | .epStart => ⟨.rxFeed, 0x27E, 0x3FF⟩
  | .epEnd => ⟨.rxFeed, 0x27D, 0x3FF⟩
  | .epEsc => ⟨.rxFeed, 0x27C, 0x3FF⟩
  | .epData _ => ⟨.rxFeed, 0x200, 0x300⟩
  | .rxIdle => ⟨.rxCtrl, 0b00, 0b11⟩
  | .rxReset _ => ⟨.rxCtrl, 0b10, 0b10⟩
  | .frameData _ _ => ⟨.txCmd, 0b00, 0b11⟩
  | .frameAck _ _ => ⟨.txCmd, 0b01, 0b11⟩
  | .frameNack _ _ => ⟨.txCmd, 0b10, 0b11⟩
  | .frameRsvd _ _ => ⟨.txCmd, 0b11, 0b11⟩
  | .txEmit => ⟨.txCtrl, 0b0011, 0b1111⟩
  | .txHold => ⟨.txCtrl, 0b0010, 0b1111⟩
  | .txIdle _ => ⟨.txCtrl, 0b0000, 0b1110⟩
  | .txReset _ => ⟨.txCtrl, 0b1000, 0b1000⟩
  | .typeData => ⟨.wireType, 0x00, 0xFF⟩
  | .typeAck => ⟨.wireType, 0x01, 0xFF⟩
  | .typeNack => ⟨.wireType, 0x02, 0xFF⟩
  | .typeRsvd0 => ⟨.wireType, 0x03, 0xFF⟩
  | .typeRsvd1 _ => ⟨.wireType, 0x04, 0xFC⟩
  | .typeRsvd2 _ => ⟨.wireType, 0x08, 0xF8⟩
  | .typeRsvd3 _ => ⟨.wireType, 0x10, 0xF0⟩
  | .typeRsvd4 _ => ⟨.wireType, 0x20, 0xE0⟩
  | .typeRsvd5 _ => ⟨.wireType, 0x40, 0xC0⟩
  | .typeRsvd6 _ => ⟨.wireType, 0x80, 0x80⟩
  | .escStart => ⟨.escSeq, 0x7C5E, 0xFFFF⟩
  | .escEnd => ⟨.escSeq, 0x7C5D, 0xFFFF⟩
  | .escEsc => ⟨.escSeq, 0x7C5C, 0xFFFF⟩
  | .escNoncanon _ => ⟨.escSeq, 0x7C00, 0xFF00⟩

/-- The format and the key bits of a word, as one number with bit 0 its least significant bit. -/
def OpWord.key (w : OpWord) : KeyFormat × Nat :=
  match w with
  | .rxFeed key => (.rxFeed, key.toNat)
  | .rxCtrl key => (.rxCtrl, key.toNat)
  | .txCmd cmdType _ _ => (.txCmd, cmdType.toNat)
  | .txCtrl key => (.txCtrl, key.toNat)
  | .wireType b => (.wireType, b.toNat)
  | .escSeq pair => (.escSeq, pair.toNat)

/-- The word lies in the row: same format, and key & mask = match. -/
def TableRow.matchesWord (r : TableRow) (w : OpWord) : Bool :=
  r.format == w.key.1 && w.key.2 &&& r.maskBits == r.matchBits

/-- The keyed word that the opcode table's bits stand for. The table gives a key's bits and not its format, and several formats
share their keys, so the number of bits and the value select it (DESIGN CHOICE, log 14): 16 bits are an `esc_seq` pair or, below
0x400, an `rx_feed` key; 8 bits are the one format that is 8 bits wide, `wire_type`; the unrounded widths 10, 4 and 2 are
`rx_feed`, `tx_ctrl` and `tx_cmd`. -/
def tableWord (nbits w : Nat) : Option OpWord :=
  if nbits = 16 then
    if w < 0x400 then some (.rxFeed (BitVec.ofNat 10 w))
    else if w < 0x10000 then some (.escSeq (BitVec.ofNat 16 w))
    else none
  else if nbits = 10 then if w < 0x400 then some (.rxFeed (BitVec.ofNat 10 w)) else none
  else if nbits = 8 then if w < 0x100 then some (.wireType (BitVec.ofNat 8 w)) else none
  else if nbits = 4 then if w < 0x10 then some (.txCtrl (BitVec.ofNat 4 w)) else none
  else if nbits = 2 then if w < 0x4 then some (.txCmd (BitVec.ofNat 2 w) 0 []) else none
  else none

/-- The operation the decoder reads from the table bits `w`, for `CFG_DEF`, whose keys the table holds. -/
def decodeTableWord (nbits w : Nat) : Option Instr :=
  match tableWord nbits w with
  | none => none
  | some k =>
    match decode cfgDef k with
    | .ok i => some i
    | .error _ => none

end Sys2Proof
end

