-- ==== Sys2Proof/Machine/State.lean ====
section
/-! DEFINITION. The state of the block, the records on its ports, its refusals, and the state right after reset.

All of it is plain data. -/

namespace Sys2Proof.Machine

/-- `rx.state` (R20). -/
inductive RxSeq where
  /-- Outside a frame. -/
  | waitStart
  /-- Inside a frame. -/
  | inBody
  /-- Inside a frame, the last byte was ESC. -/
  | escPending
  deriving DecidableEq, Repr

/-- The storage `rx.buf` (R23), the only addressable storage (R40): byte cells by index, strictly rising, a cell that nothing has
written not listed. -/
abbrev Memory := List Host.Cell

/-- `RxState` (R25). -/
structure RxState where
  state : RxSeq
  count : Nat
  buf : Memory
  deriving DecidableEq, Repr

/-- The TX state: the output queue, first byte first (R26). -/
structure TxState where
  q : List Byte
  deriving DecidableEq, Repr

/-- The packet types (R57). -/
inductive PacketType where
  | data
  | ack
  | nack
  deriving DecidableEq, Repr

/-- `Packet{type, seq, payload}` (R121). -/
structure Packet where
  type : PacketType
  seq : Nat
  payload : List Byte
  deriving DecidableEq, Repr

/-- The causes of a `FRAMING_ERROR` (R64, R151). -/
inductive FramingCause where
  | unterminated
  | truncated
  | unknownType
  deriving DecidableEq, Repr

/-- The RX event record (R63). -/
inductive Event where
  | packet (p : Packet)
  | framingError (cause : FramingCause)
  | checksumError
  | oversizeError
  deriving DecidableEq, Repr

/-- The TX command result (R67). -/
inductive Result where
  | accepted
  | payloadTooLarge
  deriving DecidableEq, Repr

/-- The frame command record (R65). -/
structure Cmd where
  type : BitVec 2
  seq : Nat
  payload : List Byte
  deriving DecidableEq, Repr

/-- What the outside world presents in one operation of the block (log 1, log 2). -/
inductive PortInput where
  /-- The RX input ports in one RX step (R31). -/
  | rx (rst valid : Bool) (data : Byte)
  /-- The TX input ports in one TX step (R32); `none` is `cmd_valid = 0`. -/
  | tx (rst : Bool) (cmd : Option Cmd) (outReady : Bool)
  /-- One RX step with the byte `x`, read in format `esc_seq` when it completes the pair ESC, `x` (log 12). -/
  | pairEnd (x : Byte)
  /-- One RX step with the byte END, read in format `wire_type` when the frame reaches the type check (log 11). -/
  | frameEnd
  deriving DecidableEq, Repr

/-- The block (10_state.md), its output ports, the run's output histories (R183) and the script of the outside world. -/
structure State where
  /-- The configuration: fixed at construction, read-only to every operation (R28). -/
  cfg : Cfg
  /-- The RX state (R25). -/
  rx : RxState
  /-- The TX state (R26). -/
  tx : TxState
  /-- The event output of the latest RX step (R31); `none` is `ev_valid = 0`. -/
  ev : Option Event
  /-- The command result of the latest TX step (R32); `none` is `res_valid = 0`. -/
  res : Option Result
  /-- The byte output of the latest TX step (R32); `none` is `out_valid = 0`. -/
  out : Option Byte
  /-- Every event of the run, oldest first (R183; log 7). -/
  events : List Event
  /-- Every command result of the run, oldest first (log 7). -/
  results : List Result
  /-- Every byte TX has output in the run, oldest first (log 7). -/
  wire : List Byte
  /-- The port samples still to come, the next one first (log 2). -/
  inputs : List PortInput
  deriving DecidableEq, Repr

/-- The block has no fault outcome: "every error is an event" (spec/93_implementation_defined.md; log 20). -/
inductive Fault where
  deriving DecidableEq, Repr

/-- The inputs to which the model gives no meaning (R155), and the names the model's own steps need. A refusal ends the run
(log 17); every refusal is safe: nothing can be claimed of what follows it. -/
inductive Refusal where
  /-- Raised by `exec` for an operation that has no meaning yet (no arm uses it). -/
  | notModelled (mnemonic : String)
  /-- `RESERVED_CMD_TYPE` (R155 point 1): raised by FRAME.RSVD while TX is idle (R126). Safe. -/
  | reservedCmdType
  /-- `ILL_FORMED_CFG` (R155 point 2): raised at construction, and by a step of a block that could not have been built. Safe. -/
  | illFormedCfg
  /-- The word at the head of the script is no row of the opcode table; raised by `step`, which no port sample can make do it. Safe. -/
  | undecodable (why : Reject)
  deriving DecidableEq, Repr

/-- The power-on state of a block built with configuration `c` (R33, R179): the state after both resets. -/
def State.powerOn (c : Cfg) : State where
  cfg := c
  rx := ⟨.waitStart, 0, []⟩
  tx := ⟨[]⟩
  ev := none
  res := none
  out := none
  events := []
  results := []
  wire := []
  inputs := []

/-- The machine right after reset, built with `CFG_DEF` (R5, R33; log 3). -/
def State.reset : State := State.powerOn cfgDef

end Sys2Proof.Machine
end

