-- ==== Sys2Proof/Machine/Operands.lean ====
section
/-! DEFINITION. Operand assembly: byte order (R9, R41), type codes (R57), the fields of a body (R73), the frame (R121), and the
access to `rx.buf` (R23). -/

namespace Sys2Proof.Machine

/-- `be_N(v)`: `n` bytes, most significant first (R9). -/
def beBytes : (n : Nat) → (v : Nat) → List Byte
  | 0, _ => []
  | n + 1, v => BitVec.ofNat 8 (v / 256 ^ n) :: beBytes n v

/-- `from_be(l)` (R9). -/
def fromBe (l : List Byte) : Nat :=
  l.foldl (fun acc b => acc * 256 + b.toNat) 0

/-- `l[i..j)` (R9). -/
def slice (l : List Byte) (i j : Nat) : List Byte := (l.take j).drop i

/-- The TYPE byte of a packet type (R57). -/
def PacketType.typeByte (t : PacketType) : Byte :=
  match t with
  | .data => 0x00#8
  | .ack => 0x01#8
  | .nack => 0x02#8

/-- The packet type of a TYPE byte, `none` for the reserved codes 0x03 to 0xFF (R57). -/
def PacketType.ofTypeByte (b : Byte) : Option PacketType :=
  if b = 0x00#8 then some .data
  else if b = 0x01#8 then some .ack
  else if b = 0x02#8 then some .nack
  else none

/-- `raw = TYPE ++ SEQ ++ PAYLOAD` of a packet (R121). -/
def Packet.raw (c : Cfg) (p : Packet) : List Byte :=
  p.type.typeByte :: (beBytes c.SW p.seq ++ p.payload)

/-- `body = raw ++ CHECK(raw)` of a packet (R121, R140). -/
def Packet.body (c : Cfg) (p : Packet) : List Byte :=
  p.raw c ++ c.check (p.raw c)

/-- `frame(P)` (R121). -/
def Packet.frame (c : Cfg) (p : Packet) : List Byte :=
  [c.START] ++ c.escape (p.body c) ++ [c.END]

/-- A packet the wire format can carry: its sequence id fits SEQ (R58) and its payload is at most `MAX` long (R121). -/
def Packet.wf (c : Cfg) (p : Packet) : Bool :=
  decide (p.seq < 256 ^ c.SW) && decide (p.payload.length ≤ c.MAX)

/-- The TYPE field of a body, 0x00 where there is none (R73). The default is never read: a body has at least `HDR` bytes here. -/
def typeField (body : List Byte) : Byte := body.headD 0x00#8

/-- The SEQ field of a body (R73). -/
def seqField (c : Cfg) (body : List Byte) : Nat := fromBe (slice body 1 (1 + c.SW))

/-- The PAYLOAD field of a body (R73). -/
def payloadField (c : Cfg) (body : List Byte) : List Byte :=
  slice body (1 + c.SW) (body.length - c.CW)

/-- The CHECKSUM field of a body (R73). -/
def checkField (c : Cfg) (body : List Byte) : List Byte :=
  slice body (body.length - c.CW) body.length

/-- The bytes the checksum covers: `body[0 .. n-CW)` (R103, R140). -/
def coveredField (c : Cfg) (body : List Byte) : List Byte :=
  slice body 0 (body.length - c.CW)

/-- What cell `i` lists, `none` where nothing has written it. -/
def Memory.read : Memory → Nat → Option Byte
  | [], _ => none
  | (a, b) :: rest, i => if a = i then some b else Memory.read rest i

/-- `buf[i] <- v` (R10), keeping the canonical form. -/
def Memory.write : Memory → Nat → Byte → Memory
  | [], i, v => [(i, v)]
  | (a, b) :: rest, i, v =>
    if i < a then (i, v) :: (a, b) :: rest
    else if i = a then (i, v) :: rest
    else (a, b) :: Memory.write rest i v

/-- The canonical form: indexes strictly rising. No listed byte equals what an unlisted cell reads as, because an unlisted cell
has no value of the model's (log 6). -/
abbrev Memory.wf (m : Memory) : Prop := m.Pairwise fun x y => x.1 < y.1

/-- The byte in cell `i`: what was written, else the unspecified power-on contents (R33; log 6). -/
def Memory.get (m : Memory) (i : Nat) : Byte := (m.read i).getD (Config.bufPowerOn i)

/-- `buf[0 .. n)` as a list. -/
def Memory.bytes (m : Memory) (n : Nat) : List Byte := (List.range n).map m.get

/-- The body accumulated so far: `buf[0 .. count)` (R23, R100). -/
def RxState.body (r : RxState) : List Byte := r.buf.bytes r.count

/-- A buffer whose cells `0, 1, …` hold the bytes of `l` and no other cell is listed. -/
def Memory.ofBytes (l : List Byte) : Memory := l.zipIdx.map fun x => (x.2, x.1)

end Sys2Proof.Machine
end

