-- ==== Sys2Proof/Machine/Flags.lean ====
section
/-! DEFINITION. The derived status of the block (R24, R27) and the numeric codes on its output ports (R20, R57, R63, R64, R67).

A port field that the spec leaves unspecified in a step has no value here (`none`; D26, log 8). -/

namespace Sys2Proof.Machine

/-- The 2-bit encoding of `rx.state` (R20). -/
def RxSeq.code (q : RxSeq) : BitVec 2 :=
  match q with
  | .waitStart => 0#2
  | .inBody => 1#2
  | .escPending => 2#2

/-- The state of a 2-bit code; 3 is never reached (R20). -/
def RxSeq.ofCode (k : BitVec 2) : Option RxSeq :=
  if k = 0#2 then some .waitStart
  else if k = 1#2 then some .inBody
  else if k = 2#2 then some .escPending
  else none

/-- `esc_pending = (rx.state = ESC_PENDING)` (R24). -/
def RxState.escPendingFlag (r : RxState) : Bool := r.state == .escPending

/-- `tx.busy = (len(tx.q) > 0)` (R27). -/
def TxState.busy (t : TxState) : Bool := !t.q.isEmpty

/-- `cmd_ready = not tx.busy` (R27). -/
def TxState.cmdReady (t : TxState) : Bool := !t.busy

/-- The 2-bit type tag (R57). -/
def PacketType.tag (t : PacketType) : BitVec 2 :=
  match t with
  | .data => 0#2
  | .ack => 1#2
  | .nack => 2#2

/-- `ev_code` (R63). -/
def Event.code (e : Event) : BitVec 2 :=
  match e with
  | .packet _ => 0#2
  | .framingError _ => 1#2
  | .checksumError => 2#2
  | .oversizeError => 3#2

/-- The code of a framing cause (R64). -/
def FramingCause.code (f : FramingCause) : BitVec 2 :=
  match f with
  | .unterminated => 0#2
  | .truncated => 1#2
  | .unknownType => 2#2

/-- `ev_cause`: 0 for every kind other than FRAMING_ERROR (R64). -/
def Event.cause (e : Event) : BitVec 2 :=
  match e with
  | .packet _ => 0#2
  | .framingError f => f.code
  | .checksumError => 0#2
  | .oversizeError => 0#2

/-- The packet an event carries, for `ev_type`, `ev_seq`, `ev_len` and `ev_payload` (R31); no value for another kind. -/
def Event.packet? (e : Event) : Option Packet :=
  match e with
  | .packet p => some p
  | .framingError _ => none
  | .checksumError => none
  | .oversizeError => none

/-- `res_code` (R67). -/
def Result.code (r : Result) : BitVec 1 :=
  match r with
  | .accepted => 0#1
  | .payloadTooLarge => 1#1

/-- The RX output ports of one step (R31). -/
structure EvPorts where
  evValid : Bool
  evCode : Option (BitVec 2)
  evCause : Option (BitVec 2)
  evType : Option (BitVec 2)
  evSeq : Option Nat
  evLen : Option Nat
  evPayload : Option (List Byte)
  deriving DecidableEq, Repr

/-- The RX output ports for the event output of a step (R31, R63, R64, D26). -/
def evPorts (ev : Option Event) : EvPorts where
  evValid := ev.isSome
  evCode := ev.map Event.code
  evCause := ev.map Event.cause
  evType := (ev.bind Event.packet?).map fun p => p.type.tag
  evSeq := (ev.bind Event.packet?).map Packet.seq
  evLen := (ev.bind Event.packet?).map fun p => p.payload.length
  evPayload := (ev.bind Event.packet?).map Packet.payload

/-- The TX output ports (R32). -/
structure TxPorts where
  cmdReady : Bool
  resValid : Bool
  resCode : Option (BitVec 1)
  outValid : Bool
  outData : Option Byte
  txBusy : Bool
  deriving DecidableEq, Repr

/-- The TX output ports: the handshake outputs of the TX state `t`, the result and the byte of a step (R27, R32, R67). -/
def txPorts (t : TxState) (res : Option Result) (out : Option Byte) : TxPorts where
  cmdReady := t.cmdReady
  resValid := res.isSome
  resCode := res.map Result.code
  outValid := out.isSome
  outData := out
  txBusy := t.busy

end Sys2Proof.Machine
end

