-- ==== Sys2Proof/Machine/Ops.lean ====
section
/-! DEFINITION. The operations the meanings share: the RX rules as functions on `RxState` (41_deframer.md), error entry (R159), the
TX rules as functions on `TxState` (42_framer.md), and the commit of a step's result to the state. -/

namespace Sys2Proof.Machine

/-- `(s', ev)`: what an RX step gives (R90). -/
structure RxOut where
  rx : RxState
  ev : Option Event
  deriving DecidableEq, Repr

/-- `(t', res, out)`: what a TX step gives (R120). -/
structure TxOut where
  tx : TxState
  res : Option Result
  out : Option Byte
  deriving DecidableEq, Repr

/-- Error entry, the one shared operation (R159): emit the event, discard the body (`count <- 0`), enter `next`, which is
WAIT_START, or IN_BODY for UNTERMINATED. Nothing is saved; there is no return (R160). -/
def raiseError (e : Event) (next : RxSeq) (r : RxState) : RxOut :=
  ⟨{ r with state := next, count := 0 }, some e⟩

/-- RX.IDLE (R91). -/
def rxKeep (r : RxState) : RxOut := ⟨r, none⟩

/-- START in WAIT_START begins a frame (R92). -/
def rxBegin (r : RxState) : RxOut := ⟨{ r with state := .inBody, count := 0 }, none⟩

/-- Any other byte in WAIT_START is discarded (R93). -/
def rxDiscard (r : RxState) : RxOut := ⟨r, none⟩

/-- START in IN_BODY: unterminated frame, restart (R94). -/
def rxRestart (r : RxState) : RxOut := raiseError (.framingError .unterminated) .inBody r

/-- ESC in IN_BODY begins an escape sequence (R96). -/
def rxEscape (r : RxState) : RxOut := ⟨{ r with state := .escPending }, none⟩

/-- `append(s, v)` (R99). -/
def rxAppend (c : Cfg) (v : Byte) (r : RxState) : RxOut :=
  if r.count = c.BODY_MAX then raiseError .oversizeError .waitStart r
  else ⟨⟨.inBody, r.count + 1, r.buf.write r.count v⟩, none⟩

/-- Any byte in ESC_PENDING: resolve the escape (R98). -/
def rxResolve (c : Cfg) (x : Byte) (r : RxState) : RxOut := rxAppend c (c.unesc x) r

/-- The packet event of a completed body (R105); the state as `finalize` leaves it (R100). -/
def rxDeliver (c : Cfg) (t : PacketType) (r : RxState) : RxOut :=
  ⟨{ r with state := .waitStart, count := 0 }, some (.packet ⟨t, seqField c r.body, payloadField c r.body⟩)⟩

/-- The reserved TYPE codes: FRAMING_ERROR(UNKNOWN_TYPE) (R104). -/
def rxUnknownType (r : RxState) : RxOut := raiseError (.framingError .unknownType) .waitStart r

/-- The last stage of `finalize`: the type check and the packet (R104, R105). -/
def rxTypeStage (c : Cfg) (typeByte : Byte) (r : RxState) : RxOut :=
  match PacketType.ofTypeByte typeByte with
  | some t => rxDeliver c t r
  | none => rxUnknownType r

/-- The checksum of a completed body matches (R103). -/
def checksumOk (c : Cfg) (body : List Byte) : Bool :=
  checkField c body == c.check (coveredField c body)

/-- `finalize(s)`: length, then checksum, then type (R100). -/
def rxFinalize (c : Cfg) (r : RxState) : RxOut :=
  if r.count < c.HDR then raiseError (.framingError .truncated) .waitStart r
  else if checksumOk c r.body then rxTypeStage c (typeField r.body) r
  else raiseError .checksumError .waitStart r

/-- RX.RESET (R176): `buf` is unchanged. -/
def rxReset (r : RxState) : RxOut := ⟨{ r with state := .waitStart, count := 0 }, none⟩

/-- The byte part of the dispatch of R90: one arm for every state and class. -/
def rxFeed (c : Cfg) (b : Byte) (r : RxState) : RxOut :=
  match r.state, c.classOf b with
  | .waitStart, .cStart => rxBegin r
  | .waitStart, .cEnd => rxDiscard r
  | .waitStart, .cEsc => rxDiscard r
  | .waitStart, .cData => rxDiscard r
  | .inBody, .cStart => rxRestart r
  | .inBody, .cEnd => rxFinalize c r
  | .inBody, .cEsc => rxEscape r
  | .inBody, .cData => rxAppend c b r
  | .escPending, .cStart => rxResolve c b r
  | .escPending, .cEnd => rxResolve c b r
  | .escPending, .cEsc => rxResolve c b r
  | .escPending, .cData => rxResolve c b r

/-- `rx_step(s, rst, in)` (R90). -/
def rxStep (c : Cfg) (rst : Bool) (byte : Option Byte) (r : RxState) : RxOut :=
  if rst then rxReset r
  else match byte with
    | none => rxKeep r
    | some b => rxFeed c b r

/-- `accept(t, c, type)` (R122). -/
def txAccept (c : Cfg) (p : Packet) : TxOut :=
  if c.MAX < p.payload.length then ⟨⟨[]⟩, some .payloadTooLarge, none⟩
  else ⟨⟨p.frame c⟩, some .accepted, none⟩

/-- TX.EMIT: output one byte (R128). While TX is idle a TX.EMIT line is an idle step (R71). -/
def txPop (t : TxState) : TxOut :=
  match t.q with
  | [] => ⟨t, none, none⟩
  | b :: rest => ⟨⟨rest⟩, none, some b⟩

/-- TX.HOLD and TX.IDLE: nothing (R129, R130). -/
def txKeep (t : TxState) : TxOut := ⟨t, none, none⟩

/-- TX.RESET (R177). -/
def txClear (_ : TxState) : TxOut := ⟨⟨[]⟩, none, none⟩

/-- The busy part of the dispatch of R120: the sink takes a byte or it does not (R127 to R129). -/
def txDrain (outReady : Bool) (t : TxState) : TxOut :=
  if outReady then txPop t else txKeep t

/-- `tx_step(t, rst, cmd, out_ready)` (R120); `none` is the refusal of R126. -/
def txStep (c : Cfg) (rst : Bool) (cmd : Option Cmd) (outReady : Bool) (t : TxState) : Option TxOut :=
  if rst then some (txClear t)
  else if t.busy then some (txDrain outReady t)
  else match cmd with
    | none => some (txKeep t)
    | some k =>
      if k.type = 0#2 then some (txAccept c ⟨.data, k.seq, k.payload⟩)
      else if k.type = 1#2 then some (txAccept c ⟨.ack, k.seq, k.payload⟩)
      else if k.type = 2#2 then some (txAccept c ⟨.nack, k.seq, k.payload⟩)
      else none

/-- The state after an RX step: the RX state, the event output, and the event in the run's history (R10, R183). -/
def State.commitRx (s : State) (o : RxOut) : State :=
  { s with rx := o.rx, ev := o.ev, events := s.events ++ o.ev.toList }

/-- The state after a TX step (R10). -/
def State.commitTx (s : State) (o : TxOut) : State :=
  { s with tx := o.tx, res := o.res, out := o.out, results := s.results ++ o.res.toList, wire := s.wire ++ o.out.toList }

/-- One RX step with the byte `b` present (R90). -/
def State.feedByte (s : State) (b : Byte) : State := s.commitRx (rxFeed s.cfg b s.rx)

/-- The meaning of an `rx_feed` row: its rule when the machine and the byte are those of the row's key; otherwise the RX step with
the same byte, decoded where the machine is (R90; log 9). -/
def State.rxRow (s : State) (q : RxSeq) (k : ByteClass) (b : Byte) (rule : RxState → RxOut) : Host.Outcome State Fault Refusal :=
  if s.rx.state = q ∧ s.cfg.classOf b = k then .next (s.commitRx (rule s.rx)) else .next (s.feedByte b)

/-- The TYPE byte that END would check now: that of a body in IN_BODY that passes the length and checksum checks (R100). -/
def RxState.typeKey (c : Cfg) (r : RxState) : Option Byte :=
  if r.state = .inBody ∧ c.HDR ≤ r.count ∧ checksumOk c r.body then some (typeField r.body) else none

/-- The meaning of a `wire_type` row: its rule when END would check the row's TYPE byte now; otherwise the RX step with END
(R90; log 9, log 11). -/
def State.typeRow (s : State) (typeByte : Byte) (rule : RxState → RxOut) : Host.Outcome State Fault Refusal :=
  if s.rx.typeKey s.cfg = some typeByte then .next (s.commitRx (rule s.rx)) else .next (s.feedByte s.cfg.END)

/-- The meaning of an `esc_seq` row, the RX step of the byte `x` that completes the pair ESC, `x`: in ESC_PENDING, where the ESC has
been taken, the body byte `v` the pair stands for is appended (R69, R70, R98); elsewhere no pair is open and it is the RX step with
`x` (R90; log 9, log 12). -/
def State.pairRow (s : State) (x v : Byte) : Host.Outcome State Fault Refusal :=
  if s.rx.state = .escPending then .next (s.commitRx (rxAppend s.cfg v s.rx)) else .next (s.feedByte x)

/-- A `TX.FRAME` line (R71): the command is accepted while TX is idle (R122); while busy it is not taken and, as the line carries
`out_ready = 1`, the step outputs the next byte (R127). -/
def txFrame (c : Cfg) (p : Packet) (t : TxState) : TxOut :=
  if t.busy then txPop t else txAccept c p

/-- The `TX.FRAME` line of a packet: one TX step (R71). -/
def State.frameLine (s : State) (p : Packet) : State := s.commitTx (txFrame s.cfg p s.tx)

/-- The meaning of a frame command (R123 to R125). -/
def State.frameRow (s : State) (p : Packet) : Host.Outcome State Fault Refusal := .next (s.frameLine p)

end Sys2Proof.Machine
end

