-- ==== Sys2Proof/Machine/Deframer.lean ====
section
/-! DEFINITION. The meanings of the RX rows: formats `rx_feed` and `rx_ctrl` (41_deframer.md, 70_reset_and_hazards.md R176). -/

namespace Sys2Proof.Machine

/-- WS.START (R92). -/
def execWsStart (s : State) : Host.Outcome State Fault Refusal :=
  s.rxRow .waitStart .cStart s.cfg.START rxBegin

/-- WS.END (R93). -/
def execWsEnd (s : State) : Host.Outcome State Fault Refusal :=
  s.rxRow .waitStart .cEnd s.cfg.END rxDiscard

/-- WS.ESC (R93). -/
def execWsEsc (s : State) : Host.Outcome State Fault Refusal :=
  s.rxRow .waitStart .cEsc s.cfg.ESC rxDiscard

/-- WS.DATA (R93). -/
def execWsData (b : Byte) (s : State) : Host.Outcome State Fault Refusal :=
  s.rxRow .waitStart .cData b rxDiscard

/-- IB.START (R94). -/
def execIbStart (s : State) : Host.Outcome State Fault Refusal :=
  s.rxRow .inBody .cStart s.cfg.START rxRestart

/-- IB.END (R95). -/
def execIbEnd (s : State) : Host.Outcome State Fault Refusal :=
  s.rxRow .inBody .cEnd s.cfg.END (rxFinalize s.cfg)

/-- IB.ESC (R96). -/
def execIbEsc (s : State) : Host.Outcome State Fault Refusal :=
  s.rxRow .inBody .cEsc s.cfg.ESC rxEscape

/-- IB.DATA (R97). -/
def execIbData (b : Byte) (s : State) : Host.Outcome State Fault Refusal :=
  s.rxRow .inBody .cData b (rxAppend s.cfg b)

/-- EP.START (R98): START after ESC is data. -/
def execEpStart (s : State) : Host.Outcome State Fault Refusal :=
  s.rxRow .escPending .cStart s.cfg.START (rxResolve s.cfg s.cfg.START)

/-- EP.END (R98): END after ESC is data. -/
def execEpEnd (s : State) : Host.Outcome State Fault Refusal :=
  s.rxRow .escPending .cEnd s.cfg.END (rxResolve s.cfg s.cfg.END)

/-- EP.ESC (R98): ESC after ESC is data and opens no new escape. -/
def execEpEsc (s : State) : Host.Outcome State Fault Refusal :=
  s.rxRow .escPending .cEsc s.cfg.ESC (rxResolve s.cfg s.cfg.ESC)

/-- EP.DATA (R98). -/
def execEpData (b : Byte) (s : State) : Host.Outcome State Fault Refusal :=
  s.rxRow .escPending .cData b (rxResolve s.cfg b)

/-- RX.IDLE (R91). -/
def execRxIdle (s : State) : Host.Outcome State Fault Refusal :=
  .next (s.commitRx (rxKeep s.rx))

/-- RX.RESET (R176); `rx_valid` is ignored (R178). -/
def execRxReset (_ : Bool) (s : State) : Host.Outcome State Fault Refusal :=
  .next (s.commitRx (rxReset s.rx))

end Sys2Proof.Machine
end

