-- ==== Sys2Proof/Machine/EscapeSeq.lean ====
section
/-! DEFINITION. The meanings of the escape pairs, format `esc_seq`: the RX step of the byte that completes the pair ESC, x (R60, R69,
R70, R98; log 12). -/

namespace Sys2Proof.Machine

/-- ESC.START (R60, R69): the pair stands for the body byte START. -/
def execEscStart (s : State) : Host.Outcome State Fault Refusal :=
  s.pairRow (s.cfg.START ^^^ s.cfg.MASK) s.cfg.START

/-- ESC.END (R60, R69): the pair stands for the body byte END. -/
def execEscEnd (s : State) : Host.Outcome State Fault Refusal :=
  s.pairRow (s.cfg.END ^^^ s.cfg.MASK) s.cfg.END

/-- ESC.ESC (R60, R69): the pair stands for the body byte ESC. -/
def execEscEsc (s : State) : Host.Outcome State Fault Refusal :=
  s.pairRow (s.cfg.ESC ^^^ s.cfg.MASK) s.cfg.ESC

/-- ESC.NONCANON (R70): the pair stands for the body byte `x ^ MASK`. -/
def execEscNoncanon (x : Byte) (s : State) : Host.Outcome State Fault Refusal :=
  s.pairRow x (s.cfg.unesc x)

end Sys2Proof.Machine
end

