-- ==== Sys2Proof/Machine/Framer.lean ====
section
/-! DEFINITION. The meanings of the TX rows: formats `tx_cmd` and `tx_ctrl` (42_framer.md, 70_reset_and_hazards.md R177). -/

namespace Sys2Proof.Machine

/-- FRAME.DATA (R123). -/
def execFrameData (seq : Nat) (payload : List Byte) (s : State) : Host.Outcome State Fault Refusal :=
  s.frameRow ⟨.data, seq, payload⟩

/-- FRAME.ACK (R124). -/
def execFrameAck (seq : Nat) (payload : List Byte) (s : State) : Host.Outcome State Fault Refusal :=
  s.frameRow ⟨.ack, seq, payload⟩

/-- FRAME.NACK (R125). -/
def execFrameNack (seq : Nat) (payload : List Byte) (s : State) : Host.Outcome State Fault Refusal :=
  s.frameRow ⟨.nack, seq, payload⟩

/-- FRAME.RSVD: refused while TX is idle, whatever its operands (R126, R157); while busy it is not taken and the step outputs the
next byte (R71, R127). -/
def execFrameRsvd (_ : Nat) (_ : List Byte) (s : State) : Host.Outcome State Fault Refusal :=
  if s.tx.busy then .next (s.commitTx (txPop s.tx)) else .refused .reservedCmdType

/-- TX.EMIT (R128). -/
def execTxEmit (s : State) : Host.Outcome State Fault Refusal :=
  .next (s.commitTx (txPop s.tx))

/-- TX.HOLD (R129). -/
def execTxHold (s : State) : Host.Outcome State Fault Refusal :=
  .next (s.commitTx (txKeep s.tx))

/-- TX.IDLE: while TX is idle nothing happens and `out_ready` is ignored (R130); a step without a command in which TX is busy
follows `out_ready` (R120). -/
def execTxIdle (outReady : Bool) (s : State) : Host.Outcome State Fault Refusal :=
  if s.tx.busy then .next (s.commitTx (txDrain outReady s.tx)) else .next (s.commitTx (txKeep s.tx))

/-- TX.RESET (R177); the other inputs are ignored (R178). -/
def execTxReset (_ : BitVec 3) (s : State) : Host.Outcome State Fault Refusal :=
  .next (s.commitTx (txClear s.tx))

end Sys2Proof.Machine
end

