-- ==== Sys2Proof/Machine/WireType.lean ====
section
/-! DEFINITION. The meanings of the TYPE rows, format `wire_type`: END's type check of a frame with this TYPE byte
(R57, R104, R105; log 11). -/

namespace Sys2Proof.Machine

/-- TYPE.DATA (R57, R105). -/
def execTypeData (s : State) : Host.Outcome State Fault Refusal :=
  s.typeRow 0x00#8 (rxDeliver s.cfg .data)

/-- TYPE.ACK (R57, R105). -/
def execTypeAck (s : State) : Host.Outcome State Fault Refusal :=
  s.typeRow 0x01#8 (rxDeliver s.cfg .ack)

/-- TYPE.NACK (R57, R105). -/
def execTypeNack (s : State) : Host.Outcome State Fault Refusal :=
  s.typeRow 0x02#8 (rxDeliver s.cfg .nack)

/-- TYPE.RSVD.0 (R104). -/
def execTypeRsvd0 (s : State) : Host.Outcome State Fault Refusal :=
  s.typeRow 0x03#8 rxUnknownType

/-- TYPE.RSVD.1 (R104). -/
def execTypeRsvd1 (low : BitVec 2) (s : State) : Host.Outcome State Fault Refusal :=
  s.typeRow (1#6 ++ low) rxUnknownType

/-- TYPE.RSVD.2 (R104). -/
def execTypeRsvd2 (low : BitVec 3) (s : State) : Host.Outcome State Fault Refusal :=
  s.typeRow (1#5 ++ low) rxUnknownType

/-- TYPE.RSVD.3 (R104). -/
def execTypeRsvd3 (low : BitVec 4) (s : State) : Host.Outcome State Fault Refusal :=
  s.typeRow (1#4 ++ low) rxUnknownType

/-- TYPE.RSVD.4 (R104). -/
def execTypeRsvd4 (low : BitVec 5) (s : State) : Host.Outcome State Fault Refusal :=
  s.typeRow (1#3 ++ low) rxUnknownType

/-- TYPE.RSVD.5 (R104). -/
def execTypeRsvd5 (low : BitVec 6) (s : State) : Host.Outcome State Fault Refusal :=
  s.typeRow (1#2 ++ low) rxUnknownType

/-- TYPE.RSVD.6 (R104). -/
def execTypeRsvd6 (low : BitVec 7) (s : State) : Host.Outcome State Fault Refusal :=
  s.typeRow (1#1 ++ low) rxUnknownType

end Sys2Proof.Machine
end

