-- ==== Sys2Proof/Machine/Dispatch.lean ====
section
/-! DEFINITION. One arm per row of the opcode table. -/

namespace Sys2Proof.Machine

def exec (i : Instr) (s : State) : Host.Outcome State Fault Refusal :=
  match i with
  -- rx_feed
  | .wsStart => Sys2Proof.Machine.execWsStart s
  | .wsEnd => Sys2Proof.Machine.execWsEnd s
  | .wsEsc => Sys2Proof.Machine.execWsEsc s
  | .wsData b => Sys2Proof.Machine.execWsData b s
  | .ibStart => Sys2Proof.Machine.execIbStart s
  | .ibEnd => Sys2Proof.Machine.execIbEnd s
  | .ibEsc => Sys2Proof.Machine.execIbEsc s
  | .ibData b => Sys2Proof.Machine.execIbData b s
  | .epStart => Sys2Proof.Machine.execEpStart s
  | .epEnd => Sys2Proof.Machine.execEpEnd s
  | .epEsc => Sys2Proof.Machine.execEpEsc s
  | .epData b => Sys2Proof.Machine.execEpData b s
  -- rx_ctrl
  | .rxIdle => Sys2Proof.Machine.execRxIdle s
  | .rxReset rxValid => Sys2Proof.Machine.execRxReset rxValid s
  -- tx_cmd
  | .frameData seq payload => Sys2Proof.Machine.execFrameData seq payload s
  | .frameAck seq payload => Sys2Proof.Machine.execFrameAck seq payload s
  | .frameNack seq payload => Sys2Proof.Machine.execFrameNack seq payload s
  | .frameRsvd seq payload => Sys2Proof.Machine.execFrameRsvd seq payload s
  -- tx_ctrl
  | .txEmit => Sys2Proof.Machine.execTxEmit s
  | .txHold => Sys2Proof.Machine.execTxHold s
  | .txIdle outReady => Sys2Proof.Machine.execTxIdle outReady s
  | .txReset others => Sys2Proof.Machine.execTxReset others s
  -- wire_type
  | .typeData => Sys2Proof.Machine.execTypeData s
  | .typeAck => Sys2Proof.Machine.execTypeAck s
  | .typeNack => Sys2Proof.Machine.execTypeNack s
  | .typeRsvd0 => Sys2Proof.Machine.execTypeRsvd0 s
  | .typeRsvd1 low => Sys2Proof.Machine.execTypeRsvd1 low s
  | .typeRsvd2 low => Sys2Proof.Machine.execTypeRsvd2 low s
  | .typeRsvd3 low => Sys2Proof.Machine.execTypeRsvd3 low s
  | .typeRsvd4 low => Sys2Proof.Machine.execTypeRsvd4 low s
  | .typeRsvd5 low => Sys2Proof.Machine.execTypeRsvd5 low s
  | .typeRsvd6 low => Sys2Proof.Machine.execTypeRsvd6 low s
  -- esc_seq
  | .escStart => Sys2Proof.Machine.execEscStart s
  | .escEnd => Sys2Proof.Machine.execEscEnd s
  | .escEsc => Sys2Proof.Machine.execEscEsc s
  | .escNoncanon x => Sys2Proof.Machine.execEscNoncanon x s

end Sys2Proof.Machine
end

