-- ==== Sys2Proof/Machine/Fetch.lean ====
section
/-! DEFINITION. How the next operation is read: the key is formed from the port sample at the head of the script and from the
machine's own state (R90 `case s.state, class(b)`, R120 `len(t.q) = 0`), and the other way round, the state and the sample under
which a given key is the one read. -/

namespace Sys2Proof.Machine

/-- `cmd_seq` has `8*SW` wires (R32): the value on the port. -/
def portSeq (c : Cfg) (seq : Nat) : Nat := seq % 256 ^ c.SW

/-- The keyed word of one port sample in state `s`. -/
def State.portWord (s : State) (p : PortInput) : OpWord :=
  match p with
  | .rx rst valid data =>
    if rst then .rxCtrl (1#1 ++ BitVec.ofBool valid)
    else if valid then .rxFeed (rxFeedKey s.rx.state.code data)
    else .rxCtrl 0b00#2
  | .tx rst cmd outReady =>
    if rst then .txCtrl (1#1 ++ (BitVec.ofBool cmd.isSome ++ (BitVec.ofBool s.tx.busy ++ BitVec.ofBool outReady : BitVec 2) : BitVec 3))
    else if s.tx.busy then .txCtrl (0b001#3 ++ BitVec.ofBool outReady)
    else match cmd with
      | none => .txCtrl (0b000#3 ++ BitVec.ofBool outReady)
      | some k => .txCmd k.type (portSeq s.cfg k.seq) k.payload
  | .pairEnd x =>
    match s.rx.state with
    | .escPending => .escSeq (escSeqKey s.cfg x)
    | .waitStart => .rxFeed (rxFeedKey s.rx.state.code x)
    | .inBody => .rxFeed (rxFeedKey s.rx.state.code x)
  | .frameEnd =>
    match s.rx.typeKey s.cfg with
    | some b => .wireType b
    | none => .rxFeed (rxFeedKey s.rx.state.code s.cfg.END)

/-- The next word and the state with its sample consumed. With no sample left the ports are quiet: an RX step with
`rx_valid = 0` (log 2). -/
def State.fetch (s : State) : OpWord × State :=
  match s.inputs with
  | [] => (.rxCtrl 0b00#2, s)
  | p :: rest => (s.portWord p, { s with inputs := rest })

/-- The shortest body with TYPE byte `b` that passes the length and checksum checks: SEQ all zero, no payload. -/
def shortestBody (c : Cfg) (b : Byte) : List Byte :=
  (b :: beBytes c.SW 0) ++ c.check (b :: beBytes c.SW 0)

/-- `s` with a sample at the head of its script, and with the state, under which the next word read is `w` (log 21). A table word is
one of `CFG_DEF`, so the block is the `CFG_DEF` block. -/
def State.placeWord (s : State) (w : OpWord) : State :=
  let s := { s with cfg := cfgDef }
  match w with
  | .rxFeed key =>
    match RxSeq.ofCode (key.extractLsb' 8 2) with
    | some q => { s with rx := { s.rx with state := q }, inputs := .rx false true (key.extractLsb' 0 8) :: s.inputs }
    | none => s
  | .rxCtrl key => { s with inputs := .rx (key.getLsbD 1) (key.getLsbD 0) 0#8 :: s.inputs }
  | .txCmd cmdType seq payload => { s with tx := ⟨[]⟩, inputs := .tx false (some ⟨cmdType, seq, payload⟩) true :: s.inputs }
  | .txCtrl key =>
    { s with
      tx := if key.getLsbD 1 then (if s.tx.busy then s.tx else ⟨[cfgDef.END]⟩) else ⟨[]⟩
      inputs := .tx (key.getLsbD 3) (if key.getLsbD 2 then some ⟨0#2, 0, []⟩ else none) (key.getLsbD 0) :: s.inputs }
  | .wireType b =>
    { s with
      rx := if s.rx.typeKey cfgDef = some b then s.rx
        else ⟨.inBody, cfgDef.HDR, Memory.ofBytes (shortestBody cfgDef b)⟩
      inputs := .frameEnd :: s.inputs }
  | .escSeq pair =>
    { s with rx := { s.rx with state := .escPending }, inputs := .pairEnd (pair.extractLsb' 0 8) :: s.inputs }

end Sys2Proof.Machine
end

