-- ==== Sys2Proof/Machine/Step.lean ====
section
/-! DEFINITION. One step of the machine: read the next word, decode it, run its operation. -/

namespace Sys2Proof.Machine

/-- Decode a word and run it. -/
def runWord (w : OpWord) (s : State) : Host.Outcome State Fault Refusal :=
  match decode s.cfg w with
  | .ok i => exec i s
  | .error e => .refused (.undecodable e)

/-- One step. A state whose configuration fails R6 is no block that could have been built: refused (R155; log 18). -/
def step (s : State) : Host.Outcome State Fault Refusal :=
  if s.cfg.wf then runWord s.fetch.1 s.fetch.2 else .refused .illFormedCfg

/-- `s` with the table word `w` of `nbits` bits placed where the next step reads its word (log 21). -/
def State.withFetchWord (s : State) (nbits w : Nat) : State :=
  match tableWord nbits w with
  | some k => s.placeWord k
  | none => s

end Sys2Proof.Machine
end

