-- ==== Sys2Proof/Machine/Boot.lean ====
section
/-! DEFINITION. Building the block (70_reset_and_hazards.md R180, R181). -/

namespace Sys2Proof.Machine

/-- Building a block from configuration `c`: the power-on state, or the refusal ILL_FORMED_CFG (R6, R155 point 2, R179). -/
def State.construct (c : Cfg) : Host.Outcome State Fault Refusal :=
  if c.wf then .next (State.powerOn c) else .refused .illFormedCfg

end Sys2Proof.Machine
end

