-- ==== Sys2Proof/Machine/PseudoOps.lean ====
section
/-! DEFINITION. The pseudo-operations of R72, as functions on the state: lists of operations, one after the other. -/

namespace Sys2Proof.Machine

/-- `RX.FEED h1 h2 … hn`: n RX steps (R72, R106). -/
def State.feedBytes (s : State) (l : List Byte) : State := l.foldl State.feedByte s

/-- `rx_feed(s, l)`: the final RX state and the events of the steps, in order (R106). -/
def rxFeedAll (c : Cfg) : RxState → List Byte → RxState × List Event
  | r, [] => (r, [])
  | r, b :: rest =>
    ((rxFeedAll c (rxFeed c b r).rx rest).1, (rxFeed c b r).ev.toList ++ (rxFeedAll c (rxFeed c b r).rx rest).2)

/-- One TX.EMIT step (R128). -/
def State.emitByte (s : State) : State := s.commitTx (txPop s.tx)

/-- `n` TX.EMIT steps. -/
def State.emitBytes : (n : Nat) → State → State
  | 0, s => s
  | n + 1, s => State.emitBytes n s.emitByte

/-- `TX.DRAIN`: TX.EMIT repeated while `tx.busy = 1` (R72); a queue of `L` bytes takes `L` steps (R128). -/
def State.drain (s : State) : State := State.emitBytes s.tx.q.length s

/-- `TX.SEND`: `TX.FRAME`, then TX.DRAIN (R72). While TX is busy the frame command is not taken (R71, R127). -/
def State.send (s : State) (p : Packet) : State := (s.frameLine p).drain

/-- One step of `LOOP`: a TX.EMIT step whose byte, if any, is at once fed to RX (R72). -/
def State.loopByte (s : State) : State :=
  match (txPop s.tx).out with
  | none => s.emitByte
  | some b => s.emitByte.feedByte b

/-- `n` steps of `LOOP`. -/
def State.loopBytes : (n : Nat) → State → State
  | 0, s => s
  | n + 1, s => State.loopBytes n s.loopByte

/-- `LOOP`: TX.DRAIN with every byte given to RX (R72). -/
def State.loopback (s : State) : State := State.loopBytes s.tx.q.length s

end Sys2Proof.Machine
end

