-- ==== Sys2Proof/Safety.lean ====
section
/-! DEFINITION. What the statements call a good state, and the notions they are written in. -/

namespace Sys2Proof

/-- The conditions of R6 in the rule's own words. -/
structure Cfg.MeetsR6 (c : Cfg) : Prop where
  constants : c.START ≠ c.END ∧ c.START ≠ c.ESC ∧ c.END ≠ c.ESC
  mask : c.MASK ∉ [c.START, c.END, c.ESC]
  escaped : ∀ r ∈ [c.START, c.END, c.ESC], r ^^^ c.MASK ∉ [c.START, c.END, c.ESC]
  widths : c.SW ∈ [1, 2] ∧ c.CW ∈ [1, 2]
  check : MeetsContract c.check c.CW

end Sys2Proof

namespace Sys2Proof.Machine

/-- The RX invariant (R21, R22, R23, R114): the count is bounded, WAIT_START has an empty body, the buffer is canonical and within
its `BODY_MAX` cells, and every counted cell has been written. -/
structure RxState.Inv (c : Cfg) (r : RxState) : Prop where
  count_le : r.count ≤ c.BODY_MAX
  waitStart_empty : r.state = .waitStart → r.count = 0
  buf_wf : r.buf.wf
  buf_bounded : ∀ i b, r.buf.read i = some b → i < c.BODY_MAX
  body_written : ∀ i, i < r.count → ∃ b, r.buf.read i = some b

/-- The TX invariant (R26): the queue is bounded and holds the rest of one frame. -/
structure TxState.Inv (c : Cfg) (t : TxState) : Prop where
  queue_le : t.q.length ≤ c.FRAME_MAX
  queue_suffix : ∃ p : Packet, p.wf c = true ∧ t.q <:+ p.frame c

/-- What an emitted packet keeps (R116, R58): its payload is at most `MAX` long and its sequence id fits. -/
def Event.Inv (c : Cfg) (e : Event) : Prop :=
  ∀ p : Packet, e = .packet p → p.wf c = true

/-- The invariant of the block. -/
structure State.Inv (s : State) : Prop where
  cfg_wf : s.cfg.wf = true
  rx : s.rx.Inv s.cfg
  tx : s.tx.Inv s.cfg
  ev : ∀ e, s.ev = some e → e.Inv s.cfg
  events : ∀ e ∈ s.events, e.Inv s.cfg

/-- A sample of the RX agent (R29). -/
def PortInput.forRx (p : PortInput) : Bool :=
  match p with
  | .rx _ _ _ => true
  | .tx _ _ _ => false
  | .pairEnd _ => true
  | .frameEnd => true

/-- A TX sample that resets (R177). -/
def PortInput.resetsTx (p : PortInput) : Bool :=
  match p with
  | .rx _ _ _ => false
  | .tx rst _ _ => rst
  | .pairEnd _ => false
  | .frameEnd => false

/-- The packet a command of a defined type asks for, with `cmd_seq` as its port carries it (R32, R65, R66). -/
def Cmd.packet? (c : Cfg) (k : Cmd) : Option Packet :=
  if k.type = 0#2 then some ⟨.data, portSeq c k.seq, k.payload⟩
  else if k.type = 1#2 then some ⟨.ack, portSeq c k.seq, k.payload⟩
  else if k.type = 2#2 then some ⟨.nack, portSeq c k.seq, k.payload⟩
  else none

/-- The packet whose frame is queued in the next step: that of a command of a defined type, not too long, presented without reset
while TX is idle (R120, R122). -/
def State.acceptedNext (s : State) : Option Packet :=
  match s.inputs with
  | .tx false (some k) _ :: _ =>
    if s.tx.busy then none else (k.packet? s.cfg).filter fun p => decide (p.payload.length ≤ s.cfg.MAX)
  | _ => none

/-- A command as its port carries it (R32): `cmd_seq` has `8*SW` wires. -/
def Cmd.onPort (c : Cfg) (k : Cmd) : Cmd := { k with seq := portSeq c k.seq }

/-- `n` steps of the machine. -/
def runSteps (n : Nat) (s : State) : Host.Outcome State Fault Refusal := Host.Core.run Sys2Proof.core n s

/-- The state after an RX step that emits `e`, discards the body and enters `q` (R159, R100): nothing else changes, `buf` included. -/
def State.afterEvent (s : State) (q : RxSeq) (e : Event) : State :=
  { s with rx := ⟨q, 0, s.rx.buf⟩, ev := some e, events := s.events ++ [e] }

/-- A body in IN_BODY whose length and checksum pass (R101, R103), in the words of R73. -/
def RxState.PassesChecks (c : Cfg) (r : RxState) : Prop :=
  r.state = .inBody ∧ c.HDR ≤ r.count ∧ r.body.drop (r.count - c.CW) = c.check (r.body.take (r.count - c.CW))

/-- The packet of type `t` that a completed body holds (R102, R73). -/
def RxState.packetOf (c : Cfg) (r : RxState) (t : PacketType) : Packet :=
  ⟨t, fromBe ((r.body.drop 1).take c.SW), (r.body.drop (1 + c.SW)).take (r.count - c.HDR)⟩

/-- One RX sample per byte of `l` (R72 `RX.FEED`). -/
def feedSamples (l : List Byte) : List PortInput := l.map (.rx false true)

/-- The packets accepted in the next `n` steps, in order (R131). -/
def State.acceptedIn : (n : Nat) → State → List Packet
  | 0, _ => []
  | n + 1, s =>
    match step s with
    | .next t => s.acceptedNext.toList ++ State.acceptedIn n t
    | .fault _ => []
    | .refused _ => []

end Sys2Proof.Machine
end

