-- ==== Sys2Proof/WellFormed.lean ====
section
/-! DEFINITION. Well-formed operations: the operands a row's key and fields admit. -/

namespace Sys2Proof

/-- `i` is an operation some key of configuration `c` encodes: a data byte is not reserved (R62 `C_DATA`), a sequence id fits
its field (R58), the second byte of a non-canonical pair does not unescape to a reserved byte (R68 point 4). -/
def Instr.wf (c : Cfg) (i : Instr) : Bool :=
  match i with
  | .wsData b => !c.isReserved b
  | .ibData b => !c.isReserved b
  | .epData b => !c.isReserved b
  | .frameData seq _ => decide (seq < 256 ^ c.SW)
  | .frameAck seq _ => decide (seq < 256 ^ c.SW)
  | .frameNack seq _ => decide (seq < 256 ^ c.SW)
  | .frameRsvd seq _ => decide (seq < 256 ^ c.SW)
  | .escNoncanon x => !c.isReserved (c.unesc x)
  | .wsStart => true
  | .wsEnd => true
  | .wsEsc => true
  | .ibStart => true
  | .ibEnd => true
  | .ibEsc => true
  | .epStart => true
  | .epEnd => true
  | .epEsc => true
  | .rxIdle => true
  | .rxReset _ => true
  | .txEmit => true
  | .txHold => true
  | .txIdle _ => true
  | .txReset _ => true
  | .typeData => true
  | .typeAck => true
  | .typeNack => true
  | .typeRsvd0 => true
  | .typeRsvd1 _ => true
  | .typeRsvd2 _ => true
  | .typeRsvd3 _ => true
  | .typeRsvd4 _ => true
  | .typeRsvd5 _ => true
  | .typeRsvd6 _ => true
  | .escStart => true
  | .escEnd => true
  | .escEsc => true

end Sys2Proof
end

