-- ==== Sys2Proof/Certificates/Slice0/Obligations.lean ====
section
/-! DEFINITION. The statements about the block, each one a proposition to be proved or refuted. -/

open Sys2Proof Sys2Proof.Machine

/-! ### Keys and rows -/

/-- Keys written out bit by bit from the rows of spec/opcode_table.json decode to their rows (R74). -/
def Obligations.SpecKeysDecodeToTheirRows : Prop :=
  decode cfgDef (.rxFeed 0b0001111110#10) = .ok .wsStart ∧
  decode cfgDef (.rxFeed 0b0101111101#10) = .ok .ibEnd ∧
  decode cfgDef (.rxFeed 0b1000000101#10) = .ok (.epData 0x05#8) ∧
  decode cfgDef (.rxCtrl 0b00#2) = .ok .rxIdle ∧
  decode cfgDef (.rxCtrl 0b10#2) = .ok (.rxReset false) ∧
  decode cfgDef (.txCmd 0b01#2 5 []) = .ok (.frameAck 5 []) ∧
  decode cfgDef (.txCmd 0b11#2 0 []) = .ok (.frameRsvd 0 []) ∧
  decode cfgDef (.txCtrl 0b0011#4) = .ok .txEmit ∧
  decode cfgDef (.txCtrl 0b0010#4) = .ok .txHold ∧
  decode cfgDef (.txCtrl 0b1000#4) = .ok (.txReset 0#3) ∧
  decode cfgDef (.wireType 0b00000010#8) = .ok .typeNack ∧
  decode cfgDef (.wireType 0b00011010#8) = .ok (.typeRsvd3 0b1010#4) ∧
  decode cfgDef (.escSeq 0b0111110001011101#16) = .ok .escEnd ∧
  decode cfgDef (.escSeq 0b0111110001100001#16) = .ok (.escNoncanon 0x61#8)

/-- Decoding the key of a well-formed operation gives the operation back, for every configuration and every operand. -/
def Obligations.DecodeOfEncodeIsIdentity : Prop :=
  ∀ (c : Cfg) (i : Instr), c.wf = true → i.wf c = true → decode c (encode c i) = .ok i

/-- A key has one meaning: the operation it decodes to is well formed and encodes to that key. -/
def Obligations.EncodeOfDecodeIsIdentity : Prop :=
  ∀ (c : Cfg) (w : OpWord) (i : Instr), c.wf = true → decode c w = .ok i → i.wf c = true ∧ encode c i = w

/-- Under CFG_DEF every key decodes to a row of spec/opcode_table.json it lies in: same format, key & mask = match; and where it
lies in two rows of the table it is the exact one, not the lowest-priority one (R74). -/
def Obligations.DecodedKeyLiesInItsTableRow : Prop :=
  ∀ (w : OpWord) (i : Instr), decode cfgDef w = .ok i →
    i.tableRow.matchesWord w = true ∧
    ∀ j : Instr, j.tableRow.matchesWord w = true → j.tableRow.maskBits &&& i.tableRow.maskBits = j.tableRow.maskBits

/-- The keys that are no row, each rejected by its name: state code 3 (R20), a byte present in format rx_ctrl, a command taken in
format tx_ctrl, a sequence id wider than its port, a pair that does not begin with ESC. -/
def Obligations.RejectedKeysAreExactlyThese : Prop :=
  ∀ (c : Cfg) (w : OpWord) (e : Reject), decode c w = .error e ↔
    (e = .rxStateThree ∧ ∃ b : Byte, w = .rxFeed (3#2 ++ b)) ∨
    (e = .rxBytePresent ∧ w = .rxCtrl 0b01#2) ∨
    (e = .txCommandTaken ∧ ∃ low : BitVec 2, w = .txCtrl (0b01#2 ++ low)) ∨
    (e = .seqTooWide ∧ ∃ k seq payload, w = .txCmd k seq payload ∧ 256 ^ c.SW ≤ seq) ∨
    (e = .pairWithoutEsc ∧ ∃ a b : Byte, w = .escSeq (a ++ b) ∧ a ≠ c.ESC)

/-! ### Escaper and checksum -/

/-- Unescaping an escaped list gives the list and leaves no escape pending (R84). -/
def Obligations.UnescapeOfEscapeIsIdentity : Prop :=
  ∀ (c : Cfg) (l : List Byte), c.wf = true → c.unescape false (c.escape l) = (l, false)

/-- In an escaped list START and END never occur, and ESC is always followed by the mask image of a reserved byte, which is itself
not reserved (R85). -/
def Obligations.EscapedListHasNoDelimiter : Prop :=
  ∀ (c : Cfg) (l : List Byte), c.wf = true →
    c.START ∉ c.escape l ∧ c.END ∉ c.escape l ∧
    ∀ u v : List Byte, c.escape l = u ++ c.ESC :: v →
      ∃ (r : Byte) (rest : List Byte), c.isReserved r = true ∧ v = (r ^^^ c.MASK) :: rest ∧ c.isReserved (r ^^^ c.MASK) = false

/-- `escape` maps each byte to its `esc` image in order and lengthens the list by the number of reserved bytes (R82). -/
def Obligations.EscapeMapsBytesInOrder : Prop :=
  ∀ (c : Cfg) (b : Byte) (l m : List Byte),
    c.escape [] = [] ∧ c.escape (l ++ m) = c.escape l ++ c.escape m ∧
    c.escape [b] = (if b = c.START ∨ b = c.END ∨ b = c.ESC then [c.ESC, b ^^^ c.MASK] else [b]) ∧
    (c.escape l).length = l.length + l.countP c.isReserved ∧ (c.escape l).length ≤ 2 * l.length

/-- The values of `CRC16_1021` in the table of R144. -/
def Obligations.CrcValuesOfTheTable : Prop :=
  crc16 [] = 0xFFFF#16 ∧ crc16 [0x00#8] = 0xE1F0#16 ∧ crc16 [0x01#8] = 0xF1D1#16 ∧
  crc16 [0x00#8, 0x05#8] = 0x4DAA#16 ∧ crc16 [0x01#8, 0x05#8] = 0x7E9B#16 ∧ crc16 [0x02#8, 0x05#8] = 0x2BC8#16 ∧
  crc16 [0x03#8, 0x05#8] = 0x18F9#16 ∧ crc16 [0x00#8, 0x05#8, 0x41#8, 0x7E#8, 0x42#8] = 0xC404#16 ∧
  crc16 [0x00#8, 0x05#8, 0x41#8, 0x7E#8, 0x43#8] = 0xD425#16 ∧
  crc16 [0x31#8, 0x32#8, 0x33#8, 0x34#8, 0x35#8, 0x36#8, 0x37#8, 0x38#8, 0x39#8] = 0x29B1#16

/-- Property 3 of R141, a one-byte change of a list of fixed length changes the checksum: it holds of `CRC16_1021` (R145) and of the
one-byte sum (R146), and of the checksum of every configuration the block can be built with (R6 condition 5; for an algorithm of the
implementation's own it is what the name `conforming` says, log 4). -/
def Obligations.ChecksumsDetectSingleByteChange : Prop :=
  (∀ c : Cfg, c.CHECK = .crc16_1021 ∨ c.CHECK = .sum8 → c.DetectsSingleByte) ∧
  (∀ c : Cfg, c.wf = true → c.DetectsSingleByte)

/-- Property 2 of R141: every checksum of a well-formed configuration has `CW` bytes. -/
def Obligations.ChecksumHasFixedWidth : Prop :=
  ∀ (c : Cfg) (l : List Byte), c.wf = true → (c.check l).length = c.CW

/-! ### Reset, construction and invariants -/

/-- The power-on state of every configuration (R179, R33): WAIT_START, count 0, an empty queue, no output valid; no cell of `buf` is
written and each reads as its unspecified contents (log 6: that reading is the model's); `State.reset` is that of CFG_DEF (log 3). -/
def Obligations.PowerOnState : Prop :=
  State.reset = State.powerOn cfgDef ∧
  ∀ c : Cfg, (State.powerOn c).cfg = c ∧ (State.powerOn c).rx.state = .waitStart ∧ (State.powerOn c).rx.count = 0 ∧
    (∀ i, (State.powerOn c).rx.buf.read i = none ∧ (State.powerOn c).rx.buf.get i = Config.bufPowerOn i) ∧
    (State.powerOn c).tx.q = [] ∧ (State.powerOn c).tx.cmdReady = true ∧
    (State.powerOn c).ev = none ∧ (State.powerOn c).res = none ∧ (State.powerOn c).out = none

/-- The block is built from exactly the configurations that meet the five conditions of R6, written in the rule's words, and refused
with ILL_FORMED_CFG for any other (R155 point 2); a step of a state that holds such a configuration is refused too (log 18). CFG_DEF
meets them, with the derived constants of R7. Log 3, log 4 and log 6 name the model's choices: the power-on state holds the
configuration, and own algorithms are named by whether they meet R141. -/
def Obligations.ConstructionRefusesIllFormedCfg : Prop :=
  (∀ c : Cfg, c.MeetsR6 → State.construct c = .next (State.powerOn c) ∧ c.MASK ≠ 0x00#8) ∧
  (∀ c : Cfg, ¬ c.MeetsR6 → State.construct c = .refused .illFormedCfg) ∧
  (∀ s : State, ¬ s.cfg.MeetsR6 → step s = .refused .illFormedCfg) ∧
  cfgDef.MeetsR6 ∧ cfgDef.HDR = 4 ∧ cfgDef.BODY_MAX = 68 ∧ cfgDef.FRAME_MAX = 138

/-- The invariant holds after reset, for every well-formed configuration. -/
def Obligations.PowerOnMeetsTheInvariant : Prop :=
  ∀ c : Cfg, c.wf = true → (State.powerOn c).Inv

/-- Every step keeps the invariant (R21, R22, R23, R26, R114, R116): the count is bounded, WAIT_START has an empty body, the buffer
is canonical and written below the count, the queue is the rest of one frame, every event's packet fits. -/
def Obligations.StepKeepsTheInvariant : Prop :=
  ∀ s t : State, s.Inv → step s = .next t → t.Inv

/-- No operation changes the configuration (R28). -/
def Obligations.ConfigurationNeverChanges : Prop :=
  ∀ s t : State, step s = .next t → t.cfg = s.cfg

/-! ### The step -/

/-- A step of a built block runs the operation decoded from the next port sample, on the state with that sample consumed; with no
sample left it runs RX.IDLE (log 2: the script and its empty case are the model's). -/
def Obligations.StepRunsTheDecodedOperation : Prop :=
  (∀ (s : State) (p : PortInput) (rest : List PortInput) (i : Instr), s.cfg.wf = true → s.inputs = p :: rest →
    decode s.cfg (s.portWord p) = .ok i → step s = exec i { s with inputs := rest }) ∧
  (∀ s : State, s.cfg.wf = true → s.inputs = [] → step s = exec .rxIdle s)

/-- The step of an RX sample is `rx_step` of R90, reset first, then idle, then the twelve byte arms. -/
def Obligations.RxSampleRunsRxStep : Prop :=
  ∀ (s : State) (rst valid : Bool) (data : Byte) (rest : List PortInput), s.cfg.wf = true →
    s.inputs = .rx rst valid data :: rest →
    step s = .next ({ s with inputs := rest }.commitRx (rxStep s.cfg rst (if valid then some data else none) s.rx))

/-- The step of a TX sample is `tx_step` of R120, with `cmd_seq` as its port carries it. -/
def Obligations.TxSampleRunsTxStep : Prop :=
  ∀ (s : State) (rst : Bool) (cmd : Option Cmd) (ready : Bool) (rest : List PortInput), s.cfg.wf = true →
    s.inputs = .tx rst cmd ready :: rest →
    step s = match txStep s.cfg rst (cmd.map (Cmd.onPort s.cfg)) ready s.tx with
      | some o => .next ({ s with inputs := rest }.commitTx o)
      | none => .refused .reservedCmdType

/-- The samples read in formats `esc_seq` and `wire_type` are no new behaviour: each is the RX sample with its byte, one byte in one step
(R11, R44), with `x` for the byte that completes a pair and with END for the end of a frame (log 11, log 12: reading these bytes by
their pair and by their TYPE byte is the model's). -/
def Obligations.WireFormatSamplesAreByteSamples : Prop :=
  ∀ (s : State) (x : Byte) (rest : List PortInput), s.cfg.wf = true →
    step { s with inputs := .pairEnd x :: rest } = step { s with inputs := .rx false true x :: rest } ∧
    step { s with inputs := .frameEnd :: rest } = step { s with inputs := .rx false true s.cfg.END :: rest }

/-- The only input a built block is refused on is a command of type 3 presented without reset while TX is idle (R155, R126); so RX
refuses no byte in any state (R108). -/
def Obligations.OnlyReservedCommandsAreRefused : Prop :=
  ∀ (s : State) (r : Refusal), s.cfg.wf = true →
    (step s = .refused r ↔
      r = .reservedCmdType ∧ s.tx.q = [] ∧ ∃ k ready rest, s.inputs = .tx false (some k) ready :: rest ∧ k.type = 3#2)

/-! ### RX rows -/

/-- START in WAIT_START (R92): IN_BODY, count 0, `buf` not written, no event, nothing else changes. -/
def Obligations.StartInWaitStartBeginsFrame : Prop :=
  ∀ s : State, s.rx.state = .waitStart →
    exec .wsStart s = .next { s with rx := ⟨.inBody, 0, s.rx.buf⟩, ev := none }

/-- Any byte but START in WAIT_START (R93) is discarded: no event, and no state changes. -/
def Obligations.OtherBytesInWaitStartAreDiscarded : Prop :=
  ∀ (s : State) (b : Byte), s.cfg.wf = true → s.rx.state = .waitStart → b ∉ s.cfg.reserved →
    exec .wsEnd s = .next { s with ev := none } ∧ exec .wsEsc s = .next { s with ev := none } ∧
    exec (.wsData b) s = .next { s with ev := none }

/-- START in IN_BODY (R94), with any count: FRAMING_ERROR(UNTERMINATED), and the frame restarts with an empty body. -/
def Obligations.StartInBodyReportsUnterminated : Prop :=
  ∀ s : State, s.rx.state = .inBody →
    exec .ibStart s = .next (s.afterEvent .inBody (.framingError .unterminated))

/-- END in IN_BODY (R95): the checks of R101, R103, R104 in that order, else the packet of R105 with the fields of R102; RX ends in
WAIT_START with an empty body and exactly one event, and nothing else changes. -/
def Obligations.EndInBodyCompletesTheFrame : Prop :=
  ∀ s : State, s.cfg.wf = true → s.rx.state = .inBody →
    (s.rx.count < s.cfg.HDR → exec .ibEnd s = .next (s.afterEvent .waitStart (.framingError .truncated))) ∧
    (s.cfg.HDR ≤ s.rx.count →
      s.rx.body.drop (s.rx.count - s.cfg.CW) ≠ s.cfg.check (s.rx.body.take (s.rx.count - s.cfg.CW)) →
      exec .ibEnd s = .next (s.afterEvent .waitStart .checksumError)) ∧
    (s.rx.PassesChecks s.cfg → ∀ b, s.rx.body.head? = some b → 3 ≤ b.toNat →
      exec .ibEnd s = .next (s.afterEvent .waitStart (.framingError .unknownType))) ∧
    (s.rx.PassesChecks s.cfg → s.rx.body.head? = some 0x00#8 →
      exec .ibEnd s = .next (s.afterEvent .waitStart (.packet (s.rx.packetOf s.cfg .data)))) ∧
    (s.rx.PassesChecks s.cfg → s.rx.body.head? = some 0x01#8 →
      exec .ibEnd s = .next (s.afterEvent .waitStart (.packet (s.rx.packetOf s.cfg .ack)))) ∧
    (s.rx.PassesChecks s.cfg → s.rx.body.head? = some 0x02#8 →
      exec .ibEnd s = .next (s.afterEvent .waitStart (.packet (s.rx.packetOf s.cfg .nack))))

/-- ESC in IN_BODY (R96), also with a full body: ESC_PENDING, no event, `count` and `buf` unchanged. -/
def Obligations.EscInBodyEntersEscPending : Prop :=
  ∀ s : State, s.cfg.wf = true → s.rx.state = .inBody →
    exec .ibEsc s = .next { s with rx := ⟨.escPending, s.rx.count, s.rx.buf⟩, ev := none }

/-- A data byte in IN_BODY (R97, R99): stored at index `count`, or OVERSIZE_ERROR when the body is full. -/
def Obligations.DataInBodyIsAppended : Prop :=
  ∀ (s : State) (b : Byte), s.rx.state = .inBody → b ∉ s.cfg.reserved →
    (s.rx.count ≠ s.cfg.BODY_MAX → exec (.ibData b) s =
      .next { s with rx := ⟨.inBody, s.rx.count + 1, s.rx.buf.write s.rx.count b⟩, ev := none }) ∧
    (s.rx.count = s.cfg.BODY_MAX → exec (.ibData b) s = .next (s.afterEvent .waitStart .oversizeError))

/-- Any byte in ESC_PENDING (R98, R99), the delimiters and ESC included: its unescaped value is stored at index `count` and RX is back
in IN_BODY, or OVERSIZE_ERROR when the body is full. -/
def Obligations.AnyByteInEscPendingIsUnescaped : Prop :=
  ∀ s : State, s.cfg.wf = true → s.rx.state = .escPending →
    ∀ (i : Instr) (x : Byte),
      (i = .epStart ∧ x = s.cfg.START) ∨ (i = .epEnd ∧ x = s.cfg.END) ∨ (i = .epEsc ∧ x = s.cfg.ESC) ∨
        (i = .epData x ∧ x ∉ s.cfg.reserved) →
      (s.rx.count ≠ s.cfg.BODY_MAX → exec i s =
        .next { s with rx := ⟨.inBody, s.rx.count + 1, s.rx.buf.write s.rx.count (x ^^^ s.cfg.MASK)⟩, ev := none }) ∧
      (s.rx.count = s.cfg.BODY_MAX → exec i s = .next (s.afterEvent .waitStart .oversizeError))

/-- The frame of the rows that store a body byte (R97, R98, R99, and the pairs of R69, R70, run as the step of their second byte in
ESC_PENDING, log 12): row `i` stores `v`, the data byte or the unescaped byte, in cell `count` and in no other cell, and in none when
the body is full; the configuration, TX, the TX outputs and the script do not change. -/
def Obligations.StoringRowsChangeOneCell : Prop :=
  ∀ (s t : State) (i : Instr) (v : Byte), s.cfg.wf = true →
    (s.rx.state = .inBody ∧ i = .ibData v ∧ v ∉ s.cfg.reserved) ∨
      (s.rx.state = .escPending ∧ ((i = .escStart ∧ v = s.cfg.START) ∨ (i = .escEnd ∧ v = s.cfg.END) ∨ (i = .escEsc ∧ v = s.cfg.ESC) ∨
        (i = .escNoncanon (v ^^^ s.cfg.MASK) ∧ v ∉ s.cfg.reserved))) ∨
      (s.rx.state = .escPending ∧ ((i = .epStart ∧ v = s.cfg.START ^^^ s.cfg.MASK) ∨ (i = .epEnd ∧ v = s.cfg.END ^^^ s.cfg.MASK) ∨
        (i = .epEsc ∧ v = s.cfg.ESC ^^^ s.cfg.MASK) ∨ (i = .epData (v ^^^ s.cfg.MASK) ∧ v ^^^ s.cfg.MASK ∉ s.cfg.reserved))) →
    exec i s = .next t →
    (s.rx.count ≠ s.cfg.BODY_MAX → t.rx.buf.read s.rx.count = some v) ∧
    (s.rx.count = s.cfg.BODY_MAX → t.rx.buf = s.rx.buf) ∧
    (∀ a, a ≠ s.rx.count → t.rx.buf.read a = s.rx.buf.read a) ∧
    t.cfg = s.cfg ∧ t.tx = s.tx ∧ t.res = s.res ∧ t.out = s.out ∧ t.results = s.results ∧ t.wire = s.wire ∧ t.inputs = s.inputs

/-- RX.IDLE (R91): no event, no state changes, in every state. -/
def Obligations.RxIdleChangesNothing : Prop :=
  ∀ s : State, exec .rxIdle s = .next { s with ev := none }

/-- RX.RESET (R176), in every state: WAIT_START, count 0, `buf` unchanged, no event. -/
def Obligations.RxResetDiscardsTheFrameSilently : Prop :=
  ∀ (s : State) (rxValid : Bool), exec (.rxReset rxValid) s = .next { s with rx := ⟨.waitStart, 0, s.rx.buf⟩, ev := none }

/-! ### TX rows -/

/-- A frame command of a defined type while TX is idle (R122 to R125): the frame of R121 is queued with result code 0, or the payload is
too long and nothing is queued with result code 1; no byte is output and RX does not change. -/
def Obligations.FrameCommandQueuesTheFrame : Prop :=
  Result.accepted.code = 0#1 ∧ Result.payloadTooLarge.code = 1#1 ∧
  ∀ (s : State) (seq : Nat) (payload : List Byte), s.tx.q = [] →
    ∀ (i : Instr) (typeByte : Byte),
      (i = .frameData seq payload ∧ typeByte = 0x00#8) ∨ (i = .frameAck seq payload ∧ typeByte = 0x01#8) ∨
        (i = .frameNack seq payload ∧ typeByte = 0x02#8) →
      (payload.length ≤ s.cfg.MAX → exec i s = .next { s with
        tx := ⟨[s.cfg.START] ++ s.cfg.escape ([typeByte] ++ beBytes s.cfg.SW seq ++ payload ++
          s.cfg.check ([typeByte] ++ beBytes s.cfg.SW seq ++ payload)) ++ [s.cfg.END]⟩
        res := some .accepted, out := none, results := s.results ++ [.accepted] }) ∧
      (s.cfg.MAX < payload.length → exec i s = .next { s with
        res := some .payloadTooLarge, out := none, results := s.results ++ [.payloadTooLarge] })

/-- `cmd_type = 3` while TX is idle is refused, whatever its sequence id and payload, also a payload that is too long (R126, R157). -/
def Obligations.ReservedCommandIsRefusedWhileIdle : Prop :=
  ∀ (s : State) (seq : Nat) (payload : List Byte), s.tx.q = [] →
    exec (.frameRsvd seq payload) s = .refused .reservedCmdType

/-- A frame command of any type while TX is busy (R127) is not taken: no result, and, as its line carries `out_ready = 1` (R71), the
step outputs the next queued byte. -/
def Obligations.CommandWhileBusyIsNotTaken : Prop :=
  ∀ (s : State) (seq : Nat) (payload : List Byte) (b : Byte) (rest : List Byte), s.tx.q = b :: rest →
    ∀ i : Instr, i = .frameData seq payload ∨ i = .frameAck seq payload ∨ i = .frameNack seq payload ∨ i = .frameRsvd seq payload →
      exec i s = .next { s with tx := ⟨rest⟩, res := none, out := some b, wire := s.wire ++ [b] }

/-- TX.EMIT while TX is busy (R128) outputs the first queued byte; while TX is idle the line is a TX.IDLE step (R71). -/
def Obligations.EmitOutputsTheFirstByte : Prop :=
  ∀ s : State,
    (∀ (b : Byte) (rest : List Byte), s.tx.q = b :: rest →
      exec .txEmit s = .next { s with tx := ⟨rest⟩, res := none, out := some b, wire := s.wire ++ [b] }) ∧
    (s.tx.q = [] → exec .txEmit s = .next { s with res := none, out := none })

/-- TX.HOLD, while TX is busy (R129) and while it is idle, where the line is a TX.IDLE step (R71), and TX.IDLE while TX is idle (R130),
whatever `out_ready` is: nothing is output and the queue does not change. -/
def Obligations.HoldAndIdleOutputNothing : Prop :=
  ∀ (s : State) (outReady : Bool),
    exec .txHold s = .next { s with res := none, out := none } ∧
    (s.tx.q = [] → exec (.txIdle outReady) s = .next { s with res := none, out := none })

/-- TX.RESET (R177), in every state: the queue is emptied, no result and no byte. -/
def Obligations.TxResetEmptiesTheQueue : Prop :=
  ∀ (s : State) (others : BitVec 3), exec (.txReset others) s = .next { s with tx := ⟨[]⟩, res := none, out := none }

/-! ### TYPE and ESC rows -/

/-- The defined TYPE codes (R57, R105): END of a frame that passes the length and checksum checks emits the packet of that type
(log 11: running the row as that END step is the model's). -/
def Obligations.DefinedTypesDeliverThePacket : Prop :=
  ∀ s : State, s.rx.PassesChecks s.cfg →
    (s.rx.body.head? = some 0x00#8 →
      exec .typeData s = .next (s.afterEvent .waitStart (.packet (s.rx.packetOf s.cfg .data)))) ∧
    (s.rx.body.head? = some 0x01#8 →
      exec .typeAck s = .next (s.afterEvent .waitStart (.packet (s.rx.packetOf s.cfg .ack)))) ∧
    (s.rx.body.head? = some 0x02#8 →
      exec .typeNack s = .next (s.afterEvent .waitStart (.packet (s.rx.packetOf s.cfg .nack))))

/-- The reserved TYPE codes (R104): END of a frame that passes the length and checksum checks is FRAMING_ERROR(UNKNOWN_TYPE)
(log 11). -/
def Obligations.ReservedTypesAreUnknown : Prop :=
  ∀ (s : State) (b : Byte), s.rx.PassesChecks s.cfg → s.rx.body.head? = some b →
    ∀ i : Instr,
      (i = .typeRsvd0 ∧ b = 0x03#8) ∨ (∃ low : BitVec 2, i = .typeRsvd1 low ∧ b = 0b000001#6 ++ low) ∨
        (∃ low : BitVec 3, i = .typeRsvd2 low ∧ b = 0b00001#5 ++ low) ∨
        (∃ low : BitVec 4, i = .typeRsvd3 low ∧ b = 0b0001#4 ++ low) ∨
        (∃ low : BitVec 5, i = .typeRsvd4 low ∧ b = 0b001#3 ++ low) ∨
        (∃ low : BitVec 6, i = .typeRsvd5 low ∧ b = 0b01#2 ++ low) ∨
        (∃ low : BitVec 7, i = .typeRsvd6 low ∧ b = 0b1#1 ++ low) →
      exec i s = .next (s.afterEvent .waitStart (.framingError .unknownType))

/-- The escape pairs (R69, R70): a canonical pair is the reserved byte, a non-canonical pair is `x ^ MASK`. With the ESC taken, the row
stores that byte at index `count` and RX is back in IN_BODY, or OVERSIZE_ERROR when the body is full (R99); so from IN_BODY the ESC and
then the row stand for one body byte, also when that byte is one of the three reserved ones (log 12: the row is the step of the
second byte). -/
def Obligations.EscapePairsStandForOneBodyByte : Prop :=
  ∀ (s : State) (i : Instr) (v : Byte), s.cfg.wf = true →
    (i = .escStart ∧ v = s.cfg.START) ∨ (i = .escEnd ∧ v = s.cfg.END) ∨ (i = .escEsc ∧ v = s.cfg.ESC) ∨
      (∃ x : Byte, i = .escNoncanon x ∧ v = x ^^^ s.cfg.MASK ∧ v ∉ s.cfg.reserved) →
    (s.rx.state = .escPending →
      (s.rx.count ≠ s.cfg.BODY_MAX → exec i s =
        .next { s with rx := ⟨.inBody, s.rx.count + 1, s.rx.buf.write s.rx.count v⟩, ev := none }) ∧
      (s.rx.count = s.cfg.BODY_MAX → exec i s = .next (s.afterEvent .waitStart .oversizeError))) ∧
    (s.rx.state = .inBody → ∃ t, exec .ibEsc s = .next t ∧
      (s.rx.count ≠ s.cfg.BODY_MAX → exec i t =
        .next { s with rx := ⟨.inBody, s.rx.count + 1, s.rx.buf.write s.rx.count v⟩, ev := none }) ∧
      (s.rx.count = s.cfg.BODY_MAX → exec i t = .next (s.afterEvent .waitStart .oversizeError)))

/-- Run in any state, also one its key does not name, every row is the port step of the inputs its key stands for (R90 and R120 decode
where the machine is; which inputs a row run elsewhere stands for is the model's: log 9, log 10, log 11, log 12). An `rx_feed` row is
the RX step with its byte; an `rx_ctrl` row the RX step with its reset bit and no byte; a `wire_type` row the RX step with END; an
`esc_seq` row the RX step with the second byte of its pair; a `tx_cmd` row the TX step with its command and `out_ready = 1`; a
`tx_ctrl` row the TX step with its reset and ready bits and no command. -/
def Obligations.EveryRowIsItsPortStep : Prop :=
  ∀ (c : Cfg) (i : Instr) (s : State), c = s.cfg → c.wf = true → i.wf c = true →
    (∀ (code : BitVec 2) (b : Byte), encode c i = .rxFeed (code ++ b) →
      exec i s = .next (s.commitRx (rxStep c false (some b) s.rx))) ∧
    (∀ key : BitVec 2, encode c i = .rxCtrl key → exec i s = .next (s.commitRx (rxStep c (key.getLsbD 1) none s.rx))) ∧
    (∀ b : Byte, encode c i = .wireType b → exec i s = .next (s.commitRx (rxStep c false (some c.END) s.rx))) ∧
    (∀ x : Byte, encode c i = .escSeq (c.ESC ++ x) → exec i s = .next (s.commitRx (rxStep c false (some x) s.rx))) ∧
    (∀ (ty : BitVec 2) (seq : Nat) (payload : List Byte), encode c i = .txCmd ty seq payload →
      exec i s = match txStep c false (some ⟨ty, seq, payload⟩) true s.tx with
        | some o => .next (s.commitTx o)
        | none => .refused .reservedCmdType) ∧
    (∀ key : BitVec 4, encode c i = .txCtrl key →
      ∃ o, txStep c (key.getLsbD 3) none (key.getLsbD 0) s.tx = some o ∧ exec i s = .next (s.commitTx o))

/-! ### The two agents -/

/-- A step of one agent writes nothing of the other (R29). -/
def Obligations.AgentsDoNotWriteEachOther : Prop :=
  ∀ (s t : State) (p : PortInput) (rest : List PortInput), s.cfg.wf = true → s.inputs = p :: rest → step s = .next t →
    (p.forRx = true → t.tx = s.tx ∧ t.res = s.res ∧ t.out = s.out ∧ t.results = s.results ∧ t.wire = s.wire) ∧
    (p.forRx = false → t.rx = s.rx ∧ t.ev = s.ev ∧ t.events = s.events)

/-- A step of one agent reads nothing of the other (R29): what it does to its own state and outputs is the same in two blocks that
agree on the configuration and on that agent's state. -/
def Obligations.AgentsDoNotReadEachOther : Prop :=
  ∀ (s s' t t' : State) (p : PortInput) (rest rest' : List PortInput), s.cfg.wf = true → s.cfg = s'.cfg →
    s.inputs = p :: rest → s'.inputs = p :: rest' → step s = .next t → step s' = .next t' →
    (p.forRx = true → s.rx = s'.rx → t.rx = t'.rx ∧ t.ev = t'.ev) ∧
    (p.forRx = false → s.tx = s'.tx → t.tx = t'.tx ∧ t.res = t'.res ∧ t.out = t'.out)

/-- RX and TX steps are unordered (R49): an RX sample and a TX sample give the same outcome in either order, a refusal included. -/
def Obligations.RxAndTxStepsCommute : Prop :=
  ∀ (s : State) (p q : PortInput) (rest : List PortInput), s.cfg.wf = true → p.forRx = true → q.forRx = false →
    runSteps 2 { s with inputs := p :: q :: rest } = runSteps 2 { s with inputs := q :: p :: rest }

/-! ### RX streams -/

/-- At most one event per RX sample, recorded in the history (R107, R183); only START in a body, END in a body and a byte that
overflows a full body give one, and END in a body always does. -/
def Obligations.AtMostOneEventPerByte : Prop :=
  ∀ (s t : State) (rst valid : Bool) (b : Byte) (rest : List PortInput), s.cfg.wf = true →
    s.inputs = .rx rst valid b :: rest → step s = .next t →
    t.events = s.events ++ t.ev.toList ∧
    (t.ev ≠ none → rst = false ∧ valid = true ∧
      ((s.rx.state = .inBody ∧ (b = s.cfg.START ∨ b = s.cfg.END)) ∨
        (s.rx.state ≠ .waitStart ∧ s.rx.count = s.cfg.BODY_MAX ∧ t.ev = some .oversizeError))) ∧
    (rst = false → valid = true → s.rx.state = .inBody → b = s.cfg.END → t.ev ≠ none)

/-- After an error event RX is ready for the next frame (R109, R159): WAIT_START, or IN_BODY after UNTERMINATED, with an empty body. -/
def Obligations.ErrorsLeaveRxReady : Prop :=
  ∀ (s t : State) (b : Byte) (rest : List PortInput) (e : Event), s.cfg.wf = true → s.inputs = .rx false true b :: rest →
    step s = .next t → t.ev = some e → (∀ p, e ≠ .packet p) →
    t.rx.count = 0 ∧ t.rx.buf = s.rx.buf ∧ t.rx.state = (if e = .framingError .unterminated then .inBody else .waitStart)

/-- A feed of n bytes is n RX steps (R72, R106): running one RX sample per byte gives the RX state and the events, in order, of
`rx_feed`; and for every split of the list the feed of the whole is the feed of the parts. -/
def Obligations.FeedIsItsSteps : Prop :=
  (∀ (s : State) (l : List Byte) (rest : List PortInput), s.cfg.wf = true → s.inputs = feedSamples l ++ rest →
    ∃ t, runSteps l.length s = .next t ∧ t.rx = (rxFeedAll s.cfg s.rx l).1 ∧
      t.events = s.events ++ (rxFeedAll s.cfg s.rx l).2 ∧ t.inputs = rest ∧ t.tx = s.tx) ∧
  (∀ (c : Cfg) (r : RxState) (l m : List Byte),
    rxFeedAll c r (l ++ m) =
      ((rxFeedAll c (rxFeedAll c r l).1 m).1, (rxFeedAll c r l).2 ++ (rxFeedAll c (rxFeedAll c r l).1 m).2))

/-- Outside a frame every list without START is discarded, with no event (R93, R115, R187). -/
def Obligations.BytesOutsideFramesAreDiscarded : Prop :=
  ∀ (c : Cfg) (r : RxState) (l : List Byte), r.state = .waitStart → c.START ∉ l → rxFeedAll c r l = (r, [])

/-- The body of a frame being received (R114 (iii)): from the frame-starting START on, in WAIT_START or, after an UNTERMINATED report,
in IN_BODY (R94), bytes with no delimiter outside an escape leave the unescaped bytes in `buf[0 .. count)` and the escape pending
exactly when the bytes end in one, as long as they fit. -/
def Obligations.BodyIsTheUnescapedInput : Prop :=
  ∀ (c : Cfg) (r : RxState) (l : List Byte), c.wf = true → r.state ≠ .escPending →
    (∀ u b v, l = u ++ b :: v → (b = c.START ∨ b = c.END) → (c.unescape false u).2 = true) →
    (c.unescape false l).1.length ≤ c.BODY_MAX →
    (rxFeedAll c r (c.START :: l)).2 = (if r.state = .inBody then [.framingError .unterminated] else []) ∧
    (rxFeedAll c r (c.START :: l)).1.body = (c.unescape false l).1 ∧
    (rxFeedAll c r (c.START :: l)).1.state = (if (c.unescape false l).2 then .escPending else .inBody)

/-- Round trip (R110): the frame of any packet the format can carry, fed outside a frame, gives exactly that packet, and RX is outside a
frame again. -/
def Obligations.FrameFedBackGivesThePacket : Prop :=
  ∀ (c : Cfg) (p : Packet) (r : RxState), c.wf = true → p.wf c = true → r.state = .waitStart →
    (rxFeedAll c r (p.frame c)).2 = [.packet p] ∧ (rxFeedAll c r (p.frame c)).1.state = .waitStart ∧
    (rxFeedAll c r (p.frame c)).1.count = 0

/-- Resynchronisation (R111): after any bytes, a frame gives its packet alone from WAIT_START, UNTERMINATED and its packet from
IN_BODY, and from every state leaves RX outside a frame with an empty body. -/
def Obligations.FrameAfterAnyBytesResynchronises : Prop :=
  ∀ (c : Cfg) (p : Packet) (r0 : RxState) (garbage : List Byte), c.wf = true → p.wf c = true →
    ((rxFeedAll c r0 garbage).1.state = .waitStart →
      (rxFeedAll c (rxFeedAll c r0 garbage).1 (p.frame c)).2 = [.packet p]) ∧
    ((rxFeedAll c r0 garbage).1.state = .inBody →
      (rxFeedAll c (rxFeedAll c r0 garbage).1 (p.frame c)).2 = [.framingError .unterminated, .packet p]) ∧
    (rxFeedAll c (rxFeedAll c r0 garbage).1 (p.frame c)).1.state = .waitStart ∧
    (rxFeedAll c (rxFeedAll c r0 garbage).1 (p.frame c)).1.count = 0

/-- Checksum sensitivity (R113): a frame in which one byte between the delimiters is changed, and that byte is (a) received in ESC_PENDING
or (b) a data byte before and after the change that follows no ESC, is a CHECKSUM_ERROR. That the checksum detects the change
(R141 property 3) is part of the configuration's being well formed. -/
def Obligations.OneChangedBodyByteIsChecksumError : Prop :=
  ∀ (c : Cfg) (p : Packet) (r : RxState) (u v : List Byte) (x y : Byte), c.wf = true → p.wf c = true →
    r.state = .waitStart → c.escape (p.body c) = u ++ x :: v → x ≠ y →
    (c.unescape false u).2 = true ∨ (c.isReserved x = false ∧ c.isReserved y = false) →
    (rxFeedAll c r ([c.START] ++ (u ++ y :: v) ++ [c.END])).2 = [.checksumError] ∧
    (rxFeedAll c r ([c.START] ++ (u ++ y :: v) ++ [c.END])).1.state = .waitStart

/-- A frame whose payload is longer than `MAX` is one OVERSIZE_ERROR, never a truncated packet (R99, R115, R116, R186). -/
def Obligations.OverlongFrameIsOneOversizeError : Prop :=
  ∀ (c : Cfg) (p : Packet) (r : RxState), c.wf = true → r.state = .waitStart → c.MAX < p.payload.length →
    (rxFeedAll c r (p.frame c)).2 = [.oversizeError] ∧ (rxFeedAll c r (p.frame c)).1.state = .waitStart ∧
    (rxFeedAll c r (p.frame c)).1.count = 0

/-- A partial frame and a pending escape last through any number of idle steps (R112, R163). -/
def Obligations.IdleStepsKeepThePartialFrame : Prop :=
  ∀ (n : Nat) (s : State) (rest : List PortInput) (b : Byte), s.cfg.wf = true →
    s.inputs = List.replicate n (.rx false false b) ++ rest →
    ∃ t, runSteps n s = .next t ∧ t.rx = s.rx ∧ t.events = s.events ∧ t.tx = s.tx ∧ t.inputs = rest

/-! ### TX streams -/

/-- A frame of L queued bytes takes exactly L steps with the sink ready, a command presented or not, and its bytes are output in order
(R127, R128, R191). -/
def Obligations.QueueDrainsInItsLength : Prop :=
  ∀ (s : State) (cmd : Option Cmd) (rest : List PortInput), s.cfg.wf = true →
    s.inputs = List.replicate s.tx.q.length (.tx false cmd true) ++ rest →
    ∃ t, runSteps s.tx.q.length s = .next t ∧ t.tx.q = [] ∧ t.wire = s.wire ++ s.tx.q ∧ t.results = s.results ∧
      t.rx = s.rx ∧ t.inputs = rest

/-- A sink that is never ready stalls TX for ever (R129, R185): no step takes a command or outputs a byte. -/
def Obligations.StalledSinkKeepsTxBusy : Prop :=
  ∀ (n : Nat) (s : State), s.cfg.wf = true → s.tx.q ≠ [] → n ≤ s.inputs.length →
    (∀ p ∈ s.inputs.take n, ∃ cmd, p = .tx false cmd false) →
    ∃ t, runSteps n s = .next t ∧ t.tx = s.tx ∧ t.wire = s.wire ∧ t.results = s.results ∧ t.rx = s.rx

/-- The bytes output are a prefix of the accepted frames, in acceptance order and without a byte between them (R131, R48): what has
been output and what is still queued together are what was there before followed by the frames accepted, as long as TX is not reset. -/
def Obligations.WireCarriesTheAcceptedFrames : Prop :=
  ∀ (n : Nat) (s t : State), s.cfg.wf = true → (∀ p ∈ s.inputs.take n, p.resetsTx = false) → runSteps n s = .next t →
    t.wire ++ t.tx.q = s.wire ++ s.tx.q ++ (State.acceptedIn n s).flatMap (Packet.frame s.cfg)

/-- The length of a frame (R121, R132, R7): two delimiters, the body, one more byte for each reserved body byte; at most FRAME_MAX.
Under CFG_DEF every frame lies between 6 and 137 bytes, and both ends are reached. -/
def Obligations.FrameLengthsAreBounded : Prop :=
  (∀ (c : Cfg) (p : Packet), c.wf = true → p.wf c = true →
    (p.frame c).length = 2 + c.HDR + p.payload.length + (p.body c).countP c.isReserved ∧ (p.frame c).length ≤ c.FRAME_MAX) ∧
  (∀ p : Packet, p.wf cfgDef = true → 6 ≤ (p.frame cfgDef).length ∧ (p.frame cfgDef).length ≤ 137) ∧
  (∃ p : Packet, p.wf cfgDef = true ∧ (p.frame cfgDef).length = 6) ∧
  (∃ p : Packet, p.wf cfgDef = true ∧ (p.frame cfgDef).length = 137)

/-- The pseudo-operations of R72 on TX. LOOP: the frame of a packet taken by TX.FRAME while TX is idle and RX is outside a frame, drained
with every byte given to RX, comes back as exactly that packet (R110, R131). TX.SEND: while TX is idle it outputs exactly the packet's
frame; while TX is busy its TX.FRAME line is not taken (R71, R127), so it outputs the bytes that were queued and gives no result. -/
def Obligations.SendAndLoopbackCarryThePacket : Prop :=
  (∀ (s : State) (p : Packet), s.cfg.wf = true → p.wf s.cfg = true → s.tx.q = [] → s.rx.state = .waitStart →
    ∃ t, t = (s.frameLine p).loopback ∧ t.events = s.events ++ [.packet p] ∧
      t.wire = s.wire ++ p.frame s.cfg ∧ t.results = s.results ++ [.accepted] ∧
      t.tx.q = [] ∧ t.rx.state = .waitStart ∧ t.rx.count = 0 ∧ t.inputs = s.inputs) ∧
  (∀ (s : State) (p : Packet), s.tx.q = [] → p.payload.length ≤ s.cfg.MAX →
    (s.send p).wire = s.wire ++ p.frame s.cfg ∧ (s.send p).results = s.results ++ [.accepted] ∧ (s.send p).tx.q = [] ∧
      (s.send p).rx = s.rx) ∧
  (∀ (s : State) (p : Packet), s.tx.q ≠ [] →
    (s.send p).wire = s.wire ++ s.tx.q ∧ (s.send p).results = s.results ∧ (s.send p).tx.q = [] ∧ (s.send p).rx = s.rx)

/-! ### Ports -/

/-- The codes on the output ports and the derived status: an event is valid and has its own `ev_code` (R63), its cause has its code and
the cause is 0 for every kind other than FRAMING_ERROR (R64), and a packet event carries its 2-bit type tag (R57), sequence id, length
and payload (R31); a result is valid and has its own `res_code` (R67); a byte output is valid and is `out_data` (R32); the handshake
outputs follow the queue (R27), and the escape-pending view is ESC_PENDING (R24). Of the fields of a step in which they are not valid
nothing is said (D26, log 8). -/
def Obligations.PortCodesFollowTheTables : Prop :=
  (∀ (e : Event) (p : Packet) (f : FramingCause),
    (evPorts (some e)).evValid = true ∧ (evPorts none).evValid = false ∧
    ((evPorts (some e)).evCode = some 0#2 ↔ ∃ q, e = .packet q) ∧
    ((evPorts (some e)).evCode = some 1#2 ↔ ∃ g, e = .framingError g) ∧
    ((evPorts (some e)).evCode = some 2#2 ↔ e = .checksumError) ∧
    ((evPorts (some e)).evCode = some 3#2 ↔ e = .oversizeError) ∧
    ((∀ g, e ≠ .framingError g) → (evPorts (some e)).evCause = some 0#2) ∧
    ((evPorts (some (.framingError f))).evCause = some 0#2 ↔ f = .unterminated) ∧
    ((evPorts (some (.framingError f))).evCause = some 1#2 ↔ f = .truncated) ∧
    ((evPorts (some (.framingError f))).evCause = some 2#2 ↔ f = .unknownType) ∧
    ((evPorts (some (.packet p))).evType = some 0#2 ↔ p.type = .data) ∧
    ((evPorts (some (.packet p))).evType = some 1#2 ↔ p.type = .ack) ∧
    ((evPorts (some (.packet p))).evType = some 2#2 ↔ p.type = .nack) ∧
    (evPorts (some (.packet p))).evSeq = some p.seq ∧ (evPorts (some (.packet p))).evLen = some p.payload.length ∧
    (evPorts (some (.packet p))).evPayload = some p.payload) ∧
  (∀ (t : TxState) (res : Option Result) (out : Option Byte) (r : Result) (b : Byte),
    (txPorts t (some r) out).resValid = true ∧ (txPorts t none out).resValid = false ∧
    ((txPorts t (some r) out).resCode = some 0#1 ↔ r = .accepted) ∧
    ((txPorts t (some r) out).resCode = some 1#1 ↔ r = .payloadTooLarge) ∧
    (txPorts t res (some b)).outValid = true ∧ (txPorts t res (some b)).outData = some b ∧ (txPorts t res none).outValid = false ∧
    ((txPorts t res out).txBusy = true ↔ 0 < t.q.length) ∧ (txPorts t res out).cmdReady = !(txPorts t res out).txBusy) ∧
  (∀ r : RxState, r.escPendingFlag = true ↔ r.state = .escPending)
end

