-- ==== Sys2Proof/Laws/Escaper.lean ====
section
/-! SUPPORT. Byte classes and escapes under a well-formed configuration (R6, R62, R81, R83). -/

namespace Sys2Proof

theorem Cfg.classOf_START (c : Cfg) : c.classOf c.START = .cStart := by simp [Cfg.classOf]

theorem Cfg.wf_START_ne_END {c : Cfg} (h : c.wf = true) : c.START ≠ c.END := by
  simp only [Cfg.wf, Cfg.constantsDistinct, Bool.and_eq_true, bne_iff_ne] at h; exact h.1.1.1.1.1.1

theorem Cfg.wf_START_ne_ESC {c : Cfg} (h : c.wf = true) : c.START ≠ c.ESC := by
  simp only [Cfg.wf, Cfg.constantsDistinct, Bool.and_eq_true, bne_iff_ne] at h; exact h.1.1.1.1.1.2

theorem Cfg.wf_END_ne_ESC {c : Cfg} (h : c.wf = true) : c.END ≠ c.ESC := by
  simp only [Cfg.wf, Cfg.constantsDistinct, Bool.and_eq_true, bne_iff_ne] at h; exact h.1.1.1.1.2

theorem Cfg.classOf_END {c : Cfg} (h : c.wf = true) : c.classOf c.END = .cEnd := by
  simp [Cfg.classOf, Ne.symm (Cfg.wf_START_ne_END h)]

theorem Cfg.classOf_ESC {c : Cfg} (h : c.wf = true) : c.classOf c.ESC = .cEsc := by
  simp [Cfg.classOf, Ne.symm (Cfg.wf_START_ne_ESC h), Ne.symm (Cfg.wf_END_ne_ESC h)]

theorem Cfg.classOf_eq_cStart {c : Cfg} {b : Byte} : c.classOf b = .cStart ↔ b = c.START := by
  simp only [Cfg.classOf]; split_ifs <;> simp_all

theorem Cfg.classOf_eq_cData {c : Cfg} {b : Byte} : c.classOf b = .cData ↔ c.isReserved b = false := by
  simp only [Cfg.classOf, Cfg.isReserved]; split_ifs <;> simp_all

/-- What the class of a byte says of it, without any assumption on the configuration. -/
theorem Cfg.eq_of_classOf {c : Cfg} {b : Byte} :
    match c.classOf b with
    | .cStart => b = c.START
    | .cEnd => b = c.END
    | .cEsc => b = c.ESC
    | .cData => c.isReserved b = false := by
  simp only [Cfg.classOf, Cfg.isReserved]; split_ifs <;> simp_all

/-- A masked reserved byte is not reserved (R6 condition 3). -/
theorem Cfg.wf_mask_reserved {c : Cfg} (h : c.wf = true) {r : Byte} (hr : c.isReserved r = true) :
    c.isReserved (r ^^^ c.MASK) = false := by
  have h3 : c.escapedNotReserved = true := by simp only [Cfg.wf, Bool.and_eq_true] at h; exact h.1.1.2
  simp only [Cfg.isReserved, Bool.or_eq_true, beq_iff_eq] at hr
  have := List.all_eq_true.1 h3 r (by simp only [Cfg.reserved, List.mem_cons, List.not_mem_nil, or_false]; tauto)
  simpa using this

/-- `unesc` is its own inverse (R83). -/
@[simp] theorem Cfg.unesc_unesc (c : Cfg) (x : Byte) : c.unesc (c.unesc x) = x := by
  simp [Cfg.unesc]

@[simp] theorem Cfg.unesc_xor (c : Cfg) (x : Byte) : c.unesc (x ^^^ c.MASK) = x := by
  simp [Cfg.unesc]

theorem Cfg.isReserved_ESC (c : Cfg) : c.isReserved c.ESC = true := by simp [Cfg.isReserved]

theorem Cfg.escByte_reserved {c : Cfg} {b : Byte} (h : c.isReserved b = true) : c.escByte b = [c.ESC, b ^^^ c.MASK] := by
  simp [Cfg.escByte, h]

theorem Cfg.escByte_data {c : Cfg} {b : Byte} (h : c.isReserved b = false) : c.escByte b = [b] := by
  simp [Cfg.escByte, h]

@[simp] theorem Cfg.escape_nil (c : Cfg) : c.escape [] = [] := rfl

theorem Cfg.escape_cons (c : Cfg) (b : Byte) (l : List Byte) : c.escape (b :: l) = c.escByte b ++ c.escape l := rfl

end Sys2Proof
end

