-- ==== Sys2Proof/Laws/Memory.lean ====
section
/-! SUPPORT. The laws of `rx.buf`: read after write, the canonical form kept, and the bytes of a prefix. -/

namespace Sys2Proof.Machine

theorem Memory.read_write_same (m : Memory) (i : Nat) (v : Byte) : (m.write i v).read i = some v := by
  induction m with
  | nil => simp [Memory.write, Memory.read]
  | cons x rest ih =>
    simp only [Memory.write]
    split
    · simp [Memory.read]
    · split
      · simp [Memory.read]
      · simp [Memory.read, ih, Ne.symm ‹¬ i = x.1›]

theorem Memory.read_write_other (m : Memory) {i j : Nat} (v : Byte) (h : j ≠ i) : (m.write i v).read j = m.read j := by
  induction m with
  | nil => simp [Memory.write, Memory.read, Ne.symm h]
  | cons x rest ih =>
    simp only [Memory.write]
    split
    · simp [Memory.read, Ne.symm h]
    · split
      · subst_vars; simp [Memory.read, Ne.symm h]
      · simp [Memory.read, ih]

/-- Every index a write lists is the written one or was listed before. -/
theorem Memory.mem_write {m : Memory} {i : Nat} {v : Byte} {x : Host.Cell} (h : x ∈ m.write i v) : x = (i, v) ∨ x ∈ m := by
  induction m with
  | nil => simpa [Memory.write] using h
  | cons y rest ih =>
    simp only [Memory.write] at h
    split at h
    · simpa using h
    · split at h
      · rcases List.mem_cons.1 h with h | h <;> simp [h]
      · rcases List.mem_cons.1 h with h | h
        · simp [h]
        · rcases ih h with h | h <;> simp [h]

/-- A write keeps the canonical form. -/
theorem Memory.write_wf {m : Memory} (i : Nat) (v : Byte) (h : m.wf) : (m.write i v).wf := by
  induction m with
  | nil => simp [Memory.write, Memory.wf]
  | cons y rest ih =>
    obtain ⟨hy, hrest⟩ := List.pairwise_cons.1 h
    simp only [Memory.write]
    split
    · rename_i hlt
      refine List.pairwise_cons.2 ⟨?_, h⟩
      intro z hz
      rcases List.mem_cons.1 hz with rfl | hz
      · exact hlt
      · exact Nat.lt_trans hlt (hy z hz)
    · split
      · rename_i _ heq
        exact List.pairwise_cons.2 ⟨fun z hz => heq ▸ hy z hz, hrest⟩
      · refine List.pairwise_cons.2 ⟨?_, ih hrest⟩
        intro z hz
        rcases Memory.mem_write hz with rfl | hz
        · simp only; omega
        · exact hy z hz

theorem Memory.empty_wf : Memory.wf [] := List.Pairwise.nil

theorem Memory.get_write_same (m : Memory) (i : Nat) (v : Byte) : (m.write i v).get i = v := by
  simp [Memory.get, Memory.read_write_same]

theorem Memory.get_write_other (m : Memory) {i j : Nat} (v : Byte) (h : j ≠ i) : (m.write i v).get j = m.get j := by
  simp [Memory.get, Memory.read_write_other m v h]

@[simp] theorem Memory.length_bytes (m : Memory) (n : Nat) : (m.bytes n).length = n := by
  simp [Memory.bytes]

@[simp] theorem Memory.bytes_zero (m : Memory) : m.bytes 0 = [] := rfl

/-- Writing cell `n` appends the byte to the prefix of length `n`. -/
theorem Memory.bytes_write (m : Memory) (n : Nat) (v : Byte) : (m.write n v).bytes (n + 1) = m.bytes n ++ [v] := by
  have hmap : (List.range n).map (m.write n v).get = (List.range n).map m.get :=
    List.map_congr_left fun j hj => Memory.get_write_other m v (Nat.ne_of_lt (List.mem_range.1 hj))
  simp [Memory.bytes, List.range_succ, hmap, Memory.get_write_same]

theorem Memory.read_zipIdx (l : List Byte) (k i : Nat) :
    Memory.read ((l.zipIdx k).map fun x => (x.2, x.1)) (k + i) = l[i]? := by
  induction l generalizing k i with
  | nil => simp [Memory.read]
  | cons b rest ih =>
    cases i with
    | zero => simp [Memory.read, List.zipIdx_cons]
    | succ j =>
      have := ih (k + 1) j
      simp only [List.zipIdx_cons, List.map_cons, Memory.read]
      rw [if_neg (by omega), show k + (j + 1) = k + 1 + j by omega, this]
      simp

/-- A buffer made of a list reads as the list. -/
theorem Memory.read_ofBytes (l : List Byte) (i : Nat) : (Memory.ofBytes l).read i = l[i]? := by
  simpa [Memory.ofBytes] using Memory.read_zipIdx l 0 i

theorem Memory.bytes_ofBytes (l : List Byte) : (Memory.ofBytes l).bytes l.length = l := by
  refine List.ext_getElem (by simp) fun i h _ => ?_
  have hi : i < l.length := by simpa using h
  simp [Memory.bytes, Memory.get, Memory.read_ofBytes, hi]

theorem Memory.ofBytes_wf (l : List Byte) : (Memory.ofBytes l).wf := by
  simp only [Memory.wf, Memory.ofBytes, List.pairwise_map]
  have h : l.zipIdx.map Prod.snd = List.range l.length := by simp [List.range_eq_range']
  have hp : (l.zipIdx.map Prod.snd).Pairwise (· < ·) := h ▸ List.pairwise_lt_range
  exact List.pairwise_map.1 hp

end Sys2Proof.Machine
end

