-- ==== Sys2Proof/Laws/State.lean ====
section
/-! SUPPORT. One lemma per field of State and update. -/

namespace Sys2Proof.Machine

section commitRx
variable (s : State) (o : RxOut)

@[simp] theorem State.commitRx_cfg : (s.commitRx o).cfg = s.cfg := rfl
@[simp] theorem State.commitRx_rx : (s.commitRx o).rx = o.rx := rfl
@[simp] theorem State.commitRx_tx : (s.commitRx o).tx = s.tx := rfl
@[simp] theorem State.commitRx_ev : (s.commitRx o).ev = o.ev := rfl
@[simp] theorem State.commitRx_res : (s.commitRx o).res = s.res := rfl
@[simp] theorem State.commitRx_out : (s.commitRx o).out = s.out := rfl
@[simp] theorem State.commitRx_events : (s.commitRx o).events = s.events ++ o.ev.toList := rfl
@[simp] theorem State.commitRx_results : (s.commitRx o).results = s.results := rfl
@[simp] theorem State.commitRx_wire : (s.commitRx o).wire = s.wire := rfl
@[simp] theorem State.commitRx_inputs : (s.commitRx o).inputs = s.inputs := rfl

end commitRx

section commitTx
variable (s : State) (o : TxOut)

@[simp] theorem State.commitTx_cfg : (s.commitTx o).cfg = s.cfg := rfl
@[simp] theorem State.commitTx_rx : (s.commitTx o).rx = s.rx := rfl
@[simp] theorem State.commitTx_tx : (s.commitTx o).tx = o.tx := rfl
@[simp] theorem State.commitTx_ev : (s.commitTx o).ev = s.ev := rfl
@[simp] theorem State.commitTx_res : (s.commitTx o).res = o.res := rfl
@[simp] theorem State.commitTx_out : (s.commitTx o).out = o.out := rfl
@[simp] theorem State.commitTx_events : (s.commitTx o).events = s.events := rfl
@[simp] theorem State.commitTx_results : (s.commitTx o).results = s.results ++ o.res.toList := rfl
@[simp] theorem State.commitTx_wire : (s.commitTx o).wire = s.wire ++ o.out.toList := rfl
@[simp] theorem State.commitTx_inputs : (s.commitTx o).inputs = s.inputs := rfl

end commitTx

section feedByte
variable (s : State) (b : Byte)

@[simp] theorem State.feedByte_cfg : (s.feedByte b).cfg = s.cfg := rfl
@[simp] theorem State.feedByte_rx : (s.feedByte b).rx = (rxFeed s.cfg b s.rx).rx := rfl
@[simp] theorem State.feedByte_tx : (s.feedByte b).tx = s.tx := rfl
@[simp] theorem State.feedByte_ev : (s.feedByte b).ev = (rxFeed s.cfg b s.rx).ev := rfl
@[simp] theorem State.feedByte_res : (s.feedByte b).res = s.res := rfl
@[simp] theorem State.feedByte_out : (s.feedByte b).out = s.out := rfl
@[simp] theorem State.feedByte_events : (s.feedByte b).events = s.events ++ (rxFeed s.cfg b s.rx).ev.toList := rfl
@[simp] theorem State.feedByte_results : (s.feedByte b).results = s.results := rfl
@[simp] theorem State.feedByte_wire : (s.feedByte b).wire = s.wire := rfl
@[simp] theorem State.feedByte_inputs : (s.feedByte b).inputs = s.inputs := rfl

end feedByte

/-- A field update of `inputs` leaves the RX and TX commits as they are. -/
@[simp] theorem State.commitRx_withInputs (s : State) (o : RxOut) (l : List PortInput) :
    { s with inputs := l }.commitRx o = { s.commitRx o with inputs := l } := rfl

@[simp] theorem State.commitTx_withInputs (s : State) (o : TxOut) (l : List PortInput) :
    { s with inputs := l }.commitTx o = { s.commitTx o with inputs := l } := rfl

@[simp] theorem State.feedByte_withInputs (s : State) (b : Byte) (l : List PortInput) :
    { s with inputs := l }.feedByte b = { s.feedByte b with inputs := l } := rfl

/-- RX and TX commits touch different fields. -/
theorem State.commitRx_commitTx (s : State) (o : RxOut) (u : TxOut) :
    (s.commitTx u).commitRx o = (s.commitRx o).commitTx u := rfl

end Sys2Proof.Machine
end

