-- ==== Sys2Proof/Laws/Ops.lean ====
section
/-! SUPPORT. What each shared operation can do, said once. -/

namespace Sys2Proof

/-- The checksum of an own algorithm that meets the contract, at a width it can have (log 4). -/
theorem Cfg.check_conforming {c : Cfg} {k n : Nat} (hk : c.CHECK = .conforming k) (hn : c.CW = n + 1) :
    c.check = (Config.conformingCheck k n).fn := by
  funext l; simp [Cfg.check, hk, hn]

/-- The checksum of an algorithm that fails the contract (log 4). -/
theorem Cfg.check_nonconforming {c : Cfg} {k : Nat} (hk : c.CHECK = .nonconforming k) :
    c.check = (Config.nonconformingCheck k c.CW).fn := by
  funext l; simp [Cfg.check, hk]

end Sys2Proof

namespace Sys2Proof.Machine

@[simp] theorem raiseError_rx (e : Event) (q : RxSeq) (r : RxState) : (raiseError e q r).rx = ⟨q, 0, r.buf⟩ := rfl
@[simp] theorem raiseError_ev (e : Event) (q : RxSeq) (r : RxState) : (raiseError e q r).ev = some e := rfl

/-- `append` below the bound (R99). -/
theorem rxAppend_below {c : Cfg} {r : RxState} (v : Byte) (h : r.count ≠ c.BODY_MAX) :
    rxAppend c v r = ⟨⟨.inBody, r.count + 1, r.buf.write r.count v⟩, none⟩ := by
  simp [rxAppend, h]

/-- `append` at the bound (R99). -/
theorem rxAppend_full {c : Cfg} {r : RxState} (v : Byte) (h : r.count = c.BODY_MAX) :
    rxAppend c v r = ⟨⟨.waitStart, 0, r.buf⟩, some .oversizeError⟩ := by
  simp [rxAppend, h, raiseError]

/-- `append` does not look at the sequencer state. -/
theorem rxAppend_congr_state (c : Cfg) (v : Byte) (q : RxSeq) (r : RxState) :
    rxAppend c v { r with state := q } = rxAppend c v r := rfl

/-- After `append` below the bound the body is one byte longer (R99). -/
theorem rxAppend_body {c : Cfg} {r : RxState} (v : Byte) (h : r.count ≠ c.BODY_MAX) :
    (rxAppend c v r).rx.body = r.body ++ [v] := by
  simp [rxAppend_below v h, RxState.body, Memory.bytes_write]

/-- `finalize` always ends in WAIT_START with an empty body, leaves `buf` alone and emits one event (R100). -/
theorem rxFinalize_shape (c : Cfg) (r : RxState) :
    ∃ e, rxFinalize c r = ⟨⟨.waitStart, 0, r.buf⟩, some e⟩ := by
  unfold rxFinalize rxTypeStage
  split
  · exact ⟨_, rfl⟩
  · split
    · split
      · exact ⟨_, rfl⟩
      · exact ⟨_, rfl⟩
    · exact ⟨_, rfl⟩

/-- The inversion of one byte step (R90): what the step of `b` can do, arm by arm. -/
theorem rxFeed_cases (c : Cfg) (b : Byte) (r : RxState) :
    (r.state = .waitStart ∧ c.classOf b = .cStart ∧ rxFeed c b r = rxBegin r) ∨
    (r.state = .waitStart ∧ c.classOf b ≠ .cStart ∧ rxFeed c b r = ⟨r, none⟩) ∨
    (r.state = .inBody ∧ c.classOf b = .cStart ∧ rxFeed c b r = rxRestart r) ∨
    (r.state = .inBody ∧ c.classOf b = .cEnd ∧ rxFeed c b r = rxFinalize c r) ∨
    (r.state = .inBody ∧ c.classOf b = .cEsc ∧ rxFeed c b r = rxEscape r) ∨
    (r.state = .inBody ∧ c.classOf b = .cData ∧ rxFeed c b r = rxAppend c b r) ∨
    (r.state = .escPending ∧ rxFeed c b r = rxAppend c (c.unesc b) r) := by
  unfold rxFeed
  cases hs : r.state <;> cases hc : c.classOf b <;> simp [rxDiscard, rxResolve]

theorem rxFeed_waitStart_START {c : Cfg} {r : RxState} (h : r.state = .waitStart) : rxFeed c c.START r = rxBegin r := by
  simp [rxFeed, h, Cfg.classOf_START]

theorem rxFeed_waitStart_other {c : Cfg} {r : RxState} {b : Byte} (h : r.state = .waitStart) (hb : b ≠ c.START) :
    rxFeed c b r = ⟨r, none⟩ := by
  have hc : c.classOf b ≠ .cStart := fun hk => hb (Cfg.classOf_eq_cStart.1 hk)
  unfold rxFeed
  cases hk : c.classOf b <;> simp_all [rxDiscard]

theorem rxFeed_inBody_START {c : Cfg} {r : RxState} (h : r.state = .inBody) : rxFeed c c.START r = rxRestart r := by
  simp [rxFeed, h, Cfg.classOf_START]

theorem rxFeed_inBody_END {c : Cfg} {r : RxState} (hc : c.wf = true) (h : r.state = .inBody) :
    rxFeed c c.END r = rxFinalize c r := by
  simp [rxFeed, h, Cfg.classOf_END hc]

theorem rxFeed_inBody_ESC {c : Cfg} {r : RxState} (hc : c.wf = true) (h : r.state = .inBody) :
    rxFeed c c.ESC r = rxEscape r := by
  simp [rxFeed, h, Cfg.classOf_ESC hc]

theorem rxFeed_inBody_data {c : Cfg} {r : RxState} {b : Byte} (h : r.state = .inBody) (hb : c.isReserved b = false) :
    rxFeed c b r = rxAppend c b r := by
  simp [rxFeed, h, Cfg.classOf_eq_cData.2 hb]

theorem rxFeed_escPending {c : Cfg} {r : RxState} (b : Byte) (h : r.state = .escPending) :
    rxFeed c b r = rxAppend c (c.unesc b) r := by
  unfold rxFeed
  cases hk : c.classOf b <;> simp [h, rxResolve]

/-- An `rx_feed` row whose rule is the arm of R90 for its key is the RX step with its byte, in every state. -/
theorem State.rxRow_eq_feedByte {s : State} {q : RxSeq} {k : ByteClass} {b : Byte} {rule : RxState → RxOut}
    (h : s.rx.state = q → s.cfg.classOf b = k → rxFeed s.cfg b s.rx = rule s.rx) :
    s.rxRow q k b rule = .next (s.feedByte b) := by
  unfold State.rxRow
  split
  · rename_i hk; rw [State.feedByte, h hk.1 hk.2]
  · rfl

/-- The type key holds exactly in an IN_BODY state whose body passes the length and checksum checks. -/
theorem RxState.typeKey_eq_some {c : Cfg} {r : RxState} {b : Byte} :
    r.typeKey c = some b ↔ r.state = .inBody ∧ c.HDR ≤ r.count ∧ checksumOk c r.body = true ∧ typeField r.body = b := by
  unfold RxState.typeKey
  split
  · rename_i h; simp [h]
  · rename_i h; simp only [reduceCtorEq, false_iff]; rintro ⟨h1, h2, h3, -⟩; exact h ⟨h1, h2, h3⟩

/-- Where the type key holds, END runs the last stage of `finalize`. -/
theorem rxFeed_END_of_typeKey {c : Cfg} {r : RxState} {b : Byte} (hc : c.wf = true) (h : r.typeKey c = some b) :
    rxFeed c c.END r = rxTypeStage c b r := by
  obtain ⟨h1, h2, h3, h4⟩ := RxState.typeKey_eq_some.1 h
  rw [rxFeed_inBody_END hc h1, rxFinalize, if_neg (Nat.not_lt.2 h2), if_pos h3, h4]

/-- A `wire_type` row is the RX step with END, in every state. -/
theorem State.typeRow_eq_feedByte {s : State} {b : Byte} {rule : RxState → RxOut} (hc : s.cfg.wf = true)
    (h : rxTypeStage s.cfg b s.rx = rule s.rx) : s.typeRow b rule = .next (s.feedByte s.cfg.END) := by
  unfold State.typeRow
  split
  · rename_i hk; rw [State.feedByte, rxFeed_END_of_typeKey hc hk, h]
  · rfl

/-- An `esc_seq` row is the RX step with the second byte of its pair, in every state. -/
theorem State.pairRow_eq_feedByte {s : State} {x v : Byte} (hv : s.cfg.unesc x = v) : s.pairRow x v = .next (s.feedByte x) := by
  unfold State.pairRow
  split
  · rename_i hs; rw [State.feedByte, rxFeed_escPending x hs, hv]
  · rfl

/-- What a frame command's acceptance gives (R122). -/
theorem txAccept_cases (c : Cfg) (p : Packet) :
    (p.payload.length ≤ c.MAX ∧ txAccept c p = ⟨⟨p.frame c⟩, some .accepted, none⟩) ∨
    (c.MAX < p.payload.length ∧ txAccept c p = ⟨⟨[]⟩, some .payloadTooLarge, none⟩) := by
  unfold txAccept
  split
  · exact .inr ⟨‹_›, rfl⟩
  · exact .inl ⟨Nat.le_of_not_lt ‹_›, rfl⟩

@[simp] theorem txPop_nil : txPop ⟨[]⟩ = ⟨⟨[]⟩, none, none⟩ := rfl
@[simp] theorem txPop_cons (b : Byte) (l : List Byte) : txPop ⟨b :: l⟩ = ⟨⟨l⟩, none, some b⟩ := rfl

theorem txFrame_idle {c : Cfg} {p : Packet} {t : TxState} (h : t.busy = false) : txFrame c p t = txAccept c p := by simp [txFrame, h]
theorem txFrame_busy {c : Cfg} {p : Packet} {t : TxState} (h : t.busy = true) : txFrame c p t = txPop t := by simp [txFrame, h]

theorem State.frameLine_idle {s : State} (p : Packet) (h : s.tx.busy = false) : s.frameLine p = s.commitTx (txAccept s.cfg p) := by
  rw [State.frameLine, txFrame_idle h]
theorem State.frameLine_busy {s : State} (p : Packet) (h : s.tx.busy = true) : s.frameLine p = s.commitTx (txPop s.tx) := by
  rw [State.frameLine, txFrame_busy h]

/-- Output and queue together are what the queue was (R128). -/
theorem txPop_conserves (t : TxState) : (txPop t).out.toList ++ (txPop t).tx.q = t.q := by
  obtain ⟨q⟩ := t; cases q <;> simp

theorem txDrain_conserves (ready : Bool) (t : TxState) : (txDrain ready t).out.toList ++ (txDrain ready t).tx.q = t.q := by
  cases ready
  · simp [txDrain, txKeep]
  · simpa [txDrain] using txPop_conserves t

@[simp] theorem TxState.busy_nil : TxState.busy ⟨[]⟩ = false := rfl
@[simp] theorem TxState.busy_cons (b : Byte) (l : List Byte) : TxState.busy ⟨b :: l⟩ = true := rfl

theorem TxState.busy_iff (t : TxState) : t.busy = true ↔ t.q ≠ [] := by
  cases h : t.q <;> simp [TxState.busy, h]

end Sys2Proof.Machine
end

