-- ==== Sys2Proof/Laws/Keys.lean ====
section
/-! SUPPORT. The fields of the keys, and what the decoder reads from a key the machine forms. -/

namespace Sys2Proof

/-- The upper field of two joined fields. -/
theorem extract_upper {m n : Nat} (x : BitVec m) (y : BitVec n) : (x ++ y).extractLsb' n m = x := by
  ext i h; simp [BitVec.getLsbD_append, h]

/-- The lower field of two joined fields. -/
theorem extract_lower {m n : Nat} (x : BitVec m) (y : BitVec n) : (x ++ y).extractLsb' 0 n = y := by
  ext i h; simp [BitVec.getLsbD_append, h]

@[simp] theorem rxFeedKey_code (code : BitVec 2) (b : Byte) : (rxFeedKey code b).extractLsb' 8 2 = code :=
  extract_upper code b

@[simp] theorem rxFeedKey_byte (code : BitVec 2) (b : Byte) : (rxFeedKey code b).extractLsb' 0 8 = b :=
  extract_lower code b

@[simp] theorem escSeqKey_first (c : Cfg) (x : Byte) : (escSeqKey c x).extractLsb' 8 8 = c.ESC :=
  extract_upper c.ESC x

@[simp] theorem escSeqKey_second (c : Cfg) (x : Byte) : (escSeqKey c x).extractLsb' 0 8 = x :=
  extract_lower c.ESC x

namespace Machine

/-- The row read when byte `b` is present in sequencer state `q` (R90). -/
def feedRow (c : Cfg) (q : RxSeq) (b : Byte) : Instr :=
  match q with
  | .waitStart => decodeWaitStart c b
  | .inBody => decodeInBody c b
  | .escPending => decodeEscPending c b

theorem decode_rxFeedKey (c : Cfg) (q : RxSeq) (b : Byte) : decode c (.rxFeed (rxFeedKey q.code b)) = .ok (feedRow c q b) := by
  cases q <;> simp [decode, decodeRxFeed, RxSeq.code, feedRow]

/-- The row's meaning is the RX step with the byte (R90: exactly one arm applies). -/
theorem exec_feedRow (s : State) (q : RxSeq) (b : Byte) : exec (feedRow s.cfg q b) s = .next (s.feedByte b) := by
  have hb := Cfg.eq_of_classOf (c := s.cfg) (b := b)
  cases q <;> simp only [feedRow, decodeWaitStart, decodeInBody, decodeEscPending] <;>
    cases hk : s.cfg.classOf b <;> simp only [hk] at hb ⊢ <;>
    first
    | (subst hb; exact State.rxRow_eq_feedByte (fun h1 h2 => by simp [rxFeed, h1, h2]))
    | exact State.rxRow_eq_feedByte (fun h1 h2 => by simp [rxFeed, h1, h2])

/-- The row of a frame command (R120). -/
def cmdRow (c : Cfg) (k : Cmd) : Instr :=
  if k.type = 0#2 then .frameData (portSeq c k.seq) k.payload
  else if k.type = 1#2 then .frameAck (portSeq c k.seq) k.payload
  else if k.type = 2#2 then .frameNack (portSeq c k.seq) k.payload
  else .frameRsvd (portSeq c k.seq) k.payload

/-- The row of the pair ESC, `x` (R60, R70). -/
def pairRowOf (c : Cfg) (x : Byte) : Instr :=
  match c.classOf (c.unesc x) with
  | .cStart => .escStart
  | .cEnd => .escEnd
  | .cEsc => .escEsc
  | .cData => .escNoncanon x

/-- The row read from a port sample in state `s`. -/
def sampleRow (s : State) (p : PortInput) : Instr :=
  match p with
  | .rx rst valid data => if rst then .rxReset valid else if valid then feedRow s.cfg s.rx.state data else .rxIdle
  | .tx rst cmd ready =>
    if rst then .txReset (BitVec.ofBool cmd.isSome ++ (BitVec.ofBool s.tx.busy ++ BitVec.ofBool ready : BitVec 2) : BitVec 3)
    else if s.tx.busy then (if ready then .txEmit else .txHold)
    else match cmd with
      | none => .txIdle ready
      | some k => cmdRow s.cfg k
  | .pairEnd x => if s.rx.state = .escPending then pairRowOf s.cfg x else feedRow s.cfg s.rx.state x
  | .frameEnd =>
    match s.rx.typeKey s.cfg with
    | some b => decodeWireType b
    | none => feedRow s.cfg s.rx.state s.cfg.END

/-- Every port sample gives a word the decoder reads. -/
theorem decode_portWord (s : State) (p : PortInput) : decode s.cfg (s.portWord p) = .ok (sampleRow s p) := by
  cases p with
  | rx rst valid data =>
    cases rst
    · cases valid
      · rfl
      · exact decode_rxFeedKey _ _ _
    · cases valid <;> rfl
  | tx rst cmd ready =>
    cases rst
    · cases hb : s.tx.busy
      · cases cmd with
        | none => cases ready <;> simp [State.portWord, sampleRow, hb] <;> rfl
        | some k =>
          have hlt : ¬ 256 ^ s.cfg.SW ≤ portSeq s.cfg k.seq := by
            simpa [portSeq] using Nat.mod_lt k.seq (Nat.pos_of_ne_zero (by simp))
          simp only [State.portWord, sampleRow, hb, decode, decodeTxCmd, cmdRow, if_neg hlt, Bool.false_eq_true, if_false]
          split_ifs <;> rfl
      · cases ready <;> simp [State.portWord, sampleRow, hb] <;> rfl
    · cases cmd <;> cases hb : s.tx.busy <;> cases ready <;> simp [State.portWord, sampleRow, hb] <;> rfl
  | pairEnd x =>
    cases hs : s.rx.state with
    | escPending =>
      simp only [State.portWord, sampleRow, hs, decode, decodeEscSeq, escSeqKey_first, escSeqKey_second, if_true]
      rfl
    | waitStart => simp only [State.portWord, sampleRow, hs, reduceCtorEq, if_false]; exact decode_rxFeedKey _ _ _
    | inBody => simp only [State.portWord, sampleRow, hs, reduceCtorEq, if_false]; exact decode_rxFeedKey _ _ _
  | frameEnd =>
    cases hk : s.rx.typeKey s.cfg with
    | some b => simp only [State.portWord, sampleRow, hk]; rfl
    | none => simp only [State.portWord, sampleRow, hk]; exact decode_rxFeedKey _ _ _

/-- A reserved TYPE byte ends the type check in UNKNOWN_TYPE (R104). -/
theorem rxTypeStage_reserved {c : Cfg} {b : Byte} (h : 3 ≤ b.toNat) (r : RxState) : rxTypeStage c b r = rxUnknownType r := by
  have h0 : b ≠ 0x00#8 := by rintro rfl; simp at h
  have h1 : b ≠ 0x01#8 := by rintro rfl; simp at h
  have h2 : b ≠ 0x02#8 := by rintro rfl; simp at h
  simp [rxTypeStage, PacketType.ofTypeByte, h0, h1, h2]

/-- The bits above the operand of a TYPE.RSVD row make its TYPE byte at least 4. -/
theorem three_le_append_one {m n : Nat} (low : BitVec n) (hn : 2 ≤ n) (hm : 0 < m) : 3 ≤ ((1#m) ++ low).toNat := by
  have h4 : 2 ^ 2 ≤ 2 ^ n := Nat.pow_le_pow_right (by decide) hn
  have h1 : (1#m).toNat = 1 := by
    simp only [BitVec.toNat_ofNat]
    exact Nat.mod_eq_of_lt (Nat.one_lt_two_pow (Nat.pos_iff_ne_zero.1 hm))
  rw [BitVec.toNat_append, h1, Nat.shiftLeft_eq, Nat.one_mul]
  have := Nat.left_le_or (n := 2 ^ n) (m := low.toNat)
  omega

/-- Every `wire_type` row is the RX step with END (log 11). -/
theorem exec_decodeWireType {s : State} (b : Byte) (hc : s.cfg.wf = true) :
    exec (decodeWireType b) s = .next (s.feedByte s.cfg.END) := by
  unfold decodeWireType
  split_ifs
  · exact State.typeRow_eq_feedByte hc rfl
  · exact State.typeRow_eq_feedByte hc rfl
  · exact State.typeRow_eq_feedByte hc rfl
  · exact State.typeRow_eq_feedByte hc rfl
  · exact State.typeRow_eq_feedByte hc (rxTypeStage_reserved (three_le_append_one (m := 6) _ (by decide) (by decide)) _)
  · exact State.typeRow_eq_feedByte hc (rxTypeStage_reserved (three_le_append_one (m := 5) _ (by decide) (by decide)) _)
  · exact State.typeRow_eq_feedByte hc (rxTypeStage_reserved (three_le_append_one (m := 4) _ (by decide) (by decide)) _)
  · exact State.typeRow_eq_feedByte hc (rxTypeStage_reserved (three_le_append_one (m := 3) _ (by decide) (by decide)) _)
  · exact State.typeRow_eq_feedByte hc (rxTypeStage_reserved (three_le_append_one (m := 2) _ (by decide) (by decide)) _)
  · exact State.typeRow_eq_feedByte hc (rxTypeStage_reserved (three_le_append_one (m := 1) _ (by decide) (by decide)) _)

/-- The row of the pair ESC, `x` is the RX step with `x` (log 12). -/
theorem exec_pairRowOf (s : State) (x : Byte) : exec (pairRowOf s.cfg x) s = .next (s.feedByte x) := by
  have hb := Cfg.eq_of_classOf (c := s.cfg) (b := s.cfg.unesc x)
  have hx (v : Byte) (h : s.cfg.unesc x = v) : x = v ^^^ s.cfg.MASK := by
    rw [← h]; simp [Cfg.unesc]
  unfold pairRowOf
  cases hk : s.cfg.classOf (s.cfg.unesc x) <;> simp only [hk] at hb ⊢
  · rw [hx _ hb]; exact State.pairRow_eq_feedByte (by simp)
  · rw [hx _ hb]; exact State.pairRow_eq_feedByte (by simp)
  · rw [hx _ hb]; exact State.pairRow_eq_feedByte (by simp)
  · exact State.pairRow_eq_feedByte rfl

/-- A step of a well-formed block with a sample at hand runs the row read from it. -/
theorem step_of_sample {s : State} {p : PortInput} {rest : List PortInput} {i : Instr} (hc : s.cfg.wf = true)
    (hp : s.inputs = p :: rest) (hi : decode s.cfg (s.portWord p) = .ok i) :
    step s = exec i { s with inputs := rest } := by
  simp [step, hc, State.fetch, hp, runWord, hi]

end Machine

end Sys2Proof
end

