-- ==== Sys2Proof/Laws/PerInstr.lean ====
section
/-! SUPPORT. A statement about every row, one lemma per constructor: under `CFG_DEF` the encoder's key lies in the row of
spec/opcode_table.json that the constructor stands for. -/

namespace Sys2Proof.Laws.KeyInRow

/-- The encoded key of a well-formed operation has its row's format, and key & mask = match. -/
def Statement (i : Instr) : Prop :=
  i.wf cfgDef = true → i.tableRow.matchesWord (encode cfgDef i) = true

theorem wsStart : Statement .wsStart := fun _ => by decide
theorem wsEnd : Statement .wsEnd := fun _ => by decide
theorem wsEsc : Statement .wsEsc := fun _ => by decide
theorem wsData (b : Byte) : Statement (.wsData b) := fun _ => by revert b; decide +kernel
theorem ibStart : Statement .ibStart := fun _ => by decide
theorem ibEnd : Statement .ibEnd := fun _ => by decide
theorem ibEsc : Statement .ibEsc := fun _ => by decide
theorem ibData (b : Byte) : Statement (.ibData b) := fun _ => by revert b; decide +kernel
theorem epStart : Statement .epStart := fun _ => by decide
theorem epEnd : Statement .epEnd := fun _ => by decide
theorem epEsc : Statement .epEsc := fun _ => by decide
theorem epData (b : Byte) : Statement (.epData b) := fun _ => by revert b; decide +kernel
theorem rxIdle : Statement .rxIdle := fun _ => by decide
theorem rxReset (rxValid : Bool) : Statement (.rxReset rxValid) := fun _ => by revert rxValid; decide
theorem frameData (seq : Nat) (payload : List Byte) : Statement (.frameData seq payload) := fun _ => by simp [Instr.tableRow, TableRow.matchesWord, encode, OpWord.key]
theorem frameAck (seq : Nat) (payload : List Byte) : Statement (.frameAck seq payload) := fun _ => by simp [Instr.tableRow, TableRow.matchesWord, encode, OpWord.key]
theorem frameNack (seq : Nat) (payload : List Byte) : Statement (.frameNack seq payload) := fun _ => by simp [Instr.tableRow, TableRow.matchesWord, encode, OpWord.key]
theorem frameRsvd (seq : Nat) (payload : List Byte) : Statement (.frameRsvd seq payload) := fun _ => by simp [Instr.tableRow, TableRow.matchesWord, encode, OpWord.key]
theorem txEmit : Statement .txEmit := fun _ => by decide
theorem txHold : Statement .txHold := fun _ => by decide
theorem txIdle (outReady : Bool) : Statement (.txIdle outReady) := fun _ => by revert outReady; decide
theorem txReset (others : BitVec 3) : Statement (.txReset others) := fun _ => by revert others; decide
theorem typeData : Statement .typeData := fun _ => by decide
theorem typeAck : Statement .typeAck := fun _ => by decide
theorem typeNack : Statement .typeNack := fun _ => by decide
theorem typeRsvd0 : Statement .typeRsvd0 := fun _ => by decide
theorem typeRsvd1 (low : BitVec 2) : Statement (.typeRsvd1 low) := fun _ => by revert low; decide
theorem typeRsvd2 (low : BitVec 3) : Statement (.typeRsvd2 low) := fun _ => by revert low; decide
theorem typeRsvd3 (low : BitVec 4) : Statement (.typeRsvd3 low) := fun _ => by revert low; decide
theorem typeRsvd4 (low : BitVec 5) : Statement (.typeRsvd4 low) := fun _ => by revert low; decide +kernel
theorem typeRsvd5 (low : BitVec 6) : Statement (.typeRsvd5 low) := fun _ => by revert low; decide +kernel
theorem typeRsvd6 (low : BitVec 7) : Statement (.typeRsvd6 low) := fun _ => by revert low; decide +kernel
theorem escStart : Statement .escStart := fun _ => by decide
theorem escEnd : Statement .escEnd := fun _ => by decide
theorem escEsc : Statement .escEsc := fun _ => by decide
theorem escNoncanon (x : Byte) : Statement (.escNoncanon x) := fun _ => by revert x; decide +kernel

end Sys2Proof.Laws.KeyInRow
end

