-- ==== Sys2Proof/Tests/Slice0.lean ====
section
/-! SUPPORT. Small tests of the model, expected values from the rules' examples and spec/95_test_vectors.md, and for every statement
with hypotheses a concrete input that meets them all. -/

namespace Sys2Proof.Tests

open Sys2Proof.Machine

-- One theorem at a time: elaborated together, the kernel evaluations below each wait in a thread of their own.
set_option Elab.async false

/-! ### Helpers -/

/-- The block with RX in state `q` and the bytes `l` accumulated. -/
def rxAt (q : RxSeq) (l : List Byte) : State := { State.reset with rx := ⟨q, l.length, Memory.ofBytes l⟩ }

/-- The block with the output queue `l`. -/
def txAt (l : List Byte) : State := { State.reset with tx := ⟨l⟩ }

/-- A state with samples to come. -/
def given (s : State) (l : List PortInput) : State := { s with inputs := l }

/-- A state of the block built with `MAX = n`. -/
def withMax (n : Nat) (s : State) : State := { s with cfg := { s.cfg with MAX := n } }

/-- `CFG_DEF` with `SW = 2`. -/
def cfgSw2 : Cfg := { cfgDef with SW := 2 }

/-- `CFG_DEF` with `CW = 1` and the one-byte sum. -/
def cfgSum : Cfg := { cfgDef with CW := 1, CHECK := .sum8 }

/-- `CFG_DEF` with an algorithm of the implementation's own. -/
def cfgOwn : Cfg := { cfgDef with CHECK := .conforming 0 }

/-- RX state, accumulated bytes and event after an outcome. -/
def rxView (o : Host.Outcome State Fault Refusal) : Option (RxSeq × List Byte × Option Event) :=
  match o with
  | .next t => some (t.rx.state, t.rx.body, t.ev)
  | .fault _ => none
  | .refused _ => none

/-- Queue, result and byte after an outcome. -/
def txView (o : Host.Outcome State Fault Refusal) : Option (List Byte × Option Result × Option Byte) :=
  match o with
  | .next t => some (t.tx.q, t.res, t.out)
  | .fault _ => none
  | .refused _ => none

/-- The outcome is a next state. -/
def goesOn (o : Host.Outcome State Fault Refusal) : Bool :=
  match o with
  | .next _ => true
  | .fault _ => false
  | .refused _ => false

/-- The refusal of an outcome. -/
def refusal (o : Host.Outcome State Fault Refusal) : Option Refusal :=
  match o with
  | .next _ => none
  | .fault _ => none
  | .refused r => some r

theorem exists_next {o : Host.Outcome State Fault Refusal} (h : goesOn o = true) : ∃ t, o = .next t := by
  cases o with
  | next t => exact ⟨t, rfl⟩
  | fault f => cases h
  | refused r => cases h

/-- The error events, and packets, in short. -/
abbrev framing (c : FramingCause) : Option Event := some (.framingError c)
abbrev pkt (t : PacketType) (seq : Nat) (l : List Byte) : Option Event := some (.packet ⟨t, seq, l⟩)

/-! ### WellFormed: each check refuses an ill-formed term -/

theorem test_cfgDef_wf : cfgDef.wf = true := by decide
theorem test_other_cfgs_wf : cfgSw2.wf = true ∧ cfgSum.wf = true ∧ cfgOwn.wf = true := by decide
theorem test_wf_constants : ({ cfgDef with END := 0x7E#8 } : Cfg).wf = false ∧ ({ cfgDef with ESC := 0x7E#8 } : Cfg).wf = false ∧
    ({ cfgDef with ESC := 0x7D#8 } : Cfg).wf = false := by decide
theorem test_wf_mask : ({ cfgDef with START := 0x20#8 } : Cfg).maskNotReserved = false ∧
    ({ cfgDef with START := 0x20#8 } : Cfg).wf = false := by decide
theorem test_wf_escaped : ({ cfgDef with MASK := 0x03#8 } : Cfg).escapedNotReserved = false ∧ ({ cfgDef with MASK := 0x00#8 } : Cfg).wf = false ∧
    ({ cfgDef with MASK := 0x03#8 } : Cfg).wf = false := by decide
theorem test_wf_widths : ({ cfgDef with SW := 0 } : Cfg).wf = false ∧ ({ cfgDef with SW := 3 } : Cfg).wf = false ∧
    ({ cfgOwn with CW := 0 } : Cfg).wf = false ∧ ({ cfgOwn with CW := 3 } : Cfg).wf = false := by decide
theorem test_wf_check : ({ cfgDef with CW := 1 } : Cfg).wf = false ∧ ({ cfgDef with CHECK := .sum8 } : Cfg).wf = false ∧
    ({ cfgDef with CHECK := .nonconforming 0 } : Cfg).wf = false := by decide
theorem test_wf_data_bytes : (Instr.wsData 0x7E#8).wf cfgDef = false ∧ (Instr.ibData 0x7D#8).wf cfgDef = false ∧
    (Instr.epData 0x7C#8).wf cfgDef = false ∧ (Instr.ibData 0x5E#8).wf cfgDef = true := by decide
theorem test_wf_seq : (Instr.frameData 256 []).wf cfgDef = false ∧ (Instr.frameAck 256 []).wf cfgDef = false ∧
    (Instr.frameNack 256 []).wf cfgDef = false ∧ (Instr.frameRsvd 256 []).wf cfgDef = false ∧
    (Instr.frameData 255 []).wf cfgDef = true ∧ (Instr.frameData 65535 []).wf cfgSw2 = true := by decide
theorem test_wf_noncanon : (Instr.escNoncanon 0x5E#8).wf cfgDef = false ∧ (Instr.escNoncanon 0x7E#8).wf cfgDef = true := by decide
theorem test_construct_refuses : refusal (State.construct { cfgDef with MASK := 0#8 }) = some .illFormedCfg ∧
    refusal (State.construct { cfgDef with CW := 1, CHECK := .nonconforming 0 }) = some .illFormedCfg := by decide

/-! ### Decode: a key of every row, from its `match` bits (opcode_table.json, R74) -/

theorem test_decode_wait_start : decode cfgDef (.rxFeed 0b0001111110#10) = .ok .wsStart ∧ decode cfgDef (.rxFeed 0b0001111101#10) = .ok .wsEnd ∧
    decode cfgDef (.rxFeed 0b0001111100#10) = .ok .wsEsc ∧ decode cfgDef (.rxFeed 0b0001000001#10) = .ok (.wsData 0x41#8) :=
  ⟨rfl, rfl, rfl, rfl⟩
theorem test_decode_in_body : decode cfgDef (.rxFeed 0b0101111110#10) = .ok .ibStart ∧ decode cfgDef (.rxFeed 0b0101111101#10) = .ok .ibEnd ∧
    decode cfgDef (.rxFeed 0b0101111100#10) = .ok .ibEsc ∧ decode cfgDef (.rxFeed 0b0111111111#10) = .ok (.ibData 0xFF#8) :=
  ⟨rfl, rfl, rfl, rfl⟩
theorem test_decode_esc_pending : decode cfgDef (.rxFeed 0b1001111110#10) = .ok .epStart ∧ decode cfgDef (.rxFeed 0b1001111101#10) = .ok .epEnd ∧
    decode cfgDef (.rxFeed 0b1001111100#10) = .ok .epEsc ∧ decode cfgDef (.rxFeed 0b1000000000#10) = .ok (.epData 0x00#8) :=
  ⟨rfl, rfl, rfl, rfl⟩
theorem test_decode_rx_ctrl : decode cfgDef (.rxCtrl 0b00#2) = .ok .rxIdle ∧ decode cfgDef (.rxCtrl 0b10#2) = .ok (.rxReset false) ∧
    decode cfgDef (.rxCtrl 0b11#2) = .ok (.rxReset true) := ⟨rfl, rfl, rfl⟩
theorem test_decode_tx_cmd : decode cfgDef (.txCmd 0b00#2 255 [0x41#8]) = .ok (.frameData 255 [0x41#8]) ∧
    decode cfgDef (.txCmd 0b01#2 5 []) = .ok (.frameAck 5 []) ∧ decode cfgDef (.txCmd 0b10#2 5 []) = .ok (.frameNack 5 []) ∧
    decode cfgDef (.txCmd 0b11#2 0 []) = .ok (.frameRsvd 0 []) := ⟨rfl, rfl, rfl, rfl⟩
theorem test_decode_tx_ctrl : decode cfgDef (.txCtrl 0b0011#4) = .ok .txEmit ∧ decode cfgDef (.txCtrl 0b0010#4) = .ok .txHold ∧
    decode cfgDef (.txCtrl 0b0000#4) = .ok (.txIdle false) ∧ decode cfgDef (.txCtrl 0b0001#4) = .ok (.txIdle true) ∧
    decode cfgDef (.txCtrl 0b1110#4) = .ok (.txReset 0b110#3) := ⟨rfl, rfl, rfl, rfl, rfl⟩
theorem test_decode_wire_type : decode cfgDef (.wireType 0b00000000#8) = .ok .typeData ∧ decode cfgDef (.wireType 0b00000001#8) = .ok .typeAck ∧
    decode cfgDef (.wireType 0b00000010#8) = .ok .typeNack ∧ decode cfgDef (.wireType 0b00000011#8) = .ok .typeRsvd0 ∧
    decode cfgDef (.wireType 0b00000101#8) = .ok (.typeRsvd1 0b01#2) ∧ decode cfgDef (.wireType 0b00001011#8) = .ok (.typeRsvd2 0b011#3) ∧
    decode cfgDef (.wireType 0b00010110#8) = .ok (.typeRsvd3 0b0110#4) ∧ decode cfgDef (.wireType 0b00110001#8) = .ok (.typeRsvd4 0b10001#5) ∧
    decode cfgDef (.wireType 0b01111111#8) = .ok (.typeRsvd5 0b111111#6) ∧ decode cfgDef (.wireType 0b10000000#8) = .ok (.typeRsvd6 0#7) :=
  ⟨rfl, rfl, rfl, rfl, rfl, rfl, rfl, rfl, rfl, rfl⟩
theorem test_decode_esc_seq : decode cfgDef (.escSeq 0b0111110001011110#16) = .ok .escStart ∧
    decode cfgDef (.escSeq 0b0111110001011101#16) = .ok .escEnd ∧ decode cfgDef (.escSeq 0b0111110001011100#16) = .ok .escEsc ∧
    decode cfgDef (.escSeq 0b0111110001111110#16) = .ok (.escNoncanon 0x7E#8) := ⟨rfl, rfl, rfl, rfl⟩
theorem test_decode_rejects : decode cfgDef (.rxFeed 0b1101111110#10) = .error .rxStateThree ∧ decode cfgDef (.rxCtrl 0b01#2) = .error .rxBytePresent ∧
    decode cfgDef (.txCtrl 0b0100#4) = .error .txCommandTaken ∧ decode cfgDef (.txCmd 0b00#2 256 []) = .error .seqTooWide ∧
    decode cfgDef (.escSeq 0b0111111001011110#16) = .error .pairWithoutEsc := ⟨rfl, rfl, rfl, rfl, rfl⟩
theorem test_encode : encode cfgDef .ibEnd = .rxFeed 0x17D#10 ∧ encode cfgDef (.txReset 5#3) = .txCtrl 0xD#4 ∧
    encode cfgDef (.typeRsvd5 1#6) = .wireType 0x41#8 ∧ encode cfgDef .escStart = .escSeq 0x7C5E#16 := by decide

/-! ### The host's two functions -/

theorem test_decodeTableWord : decodeTableWord 16 0x17D = some .ibEnd ∧ decodeTableWord 16 0x7C5D = some .escEnd ∧
    decodeTableWord 8 0x01 = some .typeAck ∧ decodeTableWord 16 0x37E = none ∧ decodeTableWord 16 0x7E5D = none ∧
    decodeTableWord 2 0b10 = some (.frameNack 0 []) ∧ decodeTableWord 4 0b0010 = some .txHold := by decide
theorem test_placed_feed_runs : rxView (step (State.reset.withFetchWord 16 0x07E)) = some (.inBody, [], none) := by decide +kernel
theorem test_placed_type_runs : rxView (step (State.reset.withFetchWord 8 0x03)) = some (.waitStart, [], framing .unknownType) := by
  decide +kernel
/-- The pair's second byte is the byte of this one step. -/
theorem test_placed_pair_runs : rxView (step (State.reset.withFetchWord 16 0x7C5E)) = some (.inBody, [0x7E#8], none) := by decide +kernel
theorem test_placed_hold_runs : txView (step (State.reset.withFetchWord 4 0b0010)) = some ([0x7D#8], none, none) := by decide +kernel

/-! ### Escaper and checksum (vectors ESC and CK) -/

theorem test_escByte : cfgDef.escByte 0x7E#8 = [0x7C#8, 0x5E#8] ∧ cfgDef.escByte 0x7D#8 = [0x7C#8, 0x5D#8] ∧
    cfgDef.escByte 0x7C#8 = [0x7C#8, 0x5C#8] ∧ cfgDef.escByte 0x5E#8 = [0x5E#8] ∧ cfgDef.escByte 0xFF#8 = [0xFF#8] := by decide
theorem test_escape : cfgDef.escape [0x41#8, 0x7E#8, 0x42#8] = [0x41#8, 0x7C#8, 0x5E#8, 0x42#8] := by decide
theorem test_unesc : cfgDef.unesc 0x5E#8 = 0x7E#8 ∧ cfgDef.unesc 0x61#8 = 0x41#8 ∧ cfgDef.unesc 0x7E#8 = 0x5E#8 := by decide
theorem test_crc : crc16 [0x00#8, 0x00#8] = 0x1D0F#16 ∧ crc16 [0x00#8, 0x12#8] = 0x2F7C#16 ∧ crc16 [0x41#8, 0x5E#8, 0x00#8, 0x00#8] = 0xD927#16 ∧
    cfgDef.check [0x00#8, 0x05#8] = [0x4D#8, 0xAA#8] := by decide +kernel
theorem test_sum8 : cfgSum.check [0x00#8, 0x05#8, 0x41#8, 0x7E#8, 0x42#8] = [0x06#8] := by decide +kernel
theorem test_frame_sw2 : Packet.frame cfgSw2 ⟨.data, 0x0102, [0x41#8]⟩ =
    [0x7E#8, 0x00#8, 0x01#8, 0x02#8, 0x41#8, 0x8D#8, 0x77#8, 0x7D#8] := by decide +kernel

/-! ### RX rows (the rules' examples and vectors DF, RS) -/

theorem test_wsStart : rxView (exec .wsStart State.reset) = some (.inBody, [], none) := by decide +kernel
theorem test_wsEnd : rxView (exec .wsEnd State.reset) = some (.waitStart, [], none) := by decide +kernel
theorem test_wsEsc : rxView (exec .wsEsc State.reset) = some (.waitStart, [], none) := by decide +kernel
theorem test_wsData : rxView (exec (.wsData 0x41#8) State.reset) = some (.waitStart, [], none) := by decide +kernel
theorem test_ibStart : rxView (exec .ibStart (rxAt .inBody [0x00#8, 0x05#8])) = some (.inBody, [], framing .unterminated) := by
  decide +kernel
theorem test_ibEnd_packet : rxView (exec .ibEnd (rxAt .inBody [0x00#8, 0x05#8, 0x41#8, 0x7E#8, 0x42#8, 0xC4#8, 0x04#8])) =
    some (.waitStart, [], pkt .data 5 [0x41#8, 0x7E#8, 0x42#8]) := by decide +kernel
/-- DF-13: the checksum is judged before the type. -/
theorem test_ibEnd_checksum_first : rxView (exec .ibEnd (rxAt .inBody [0x03#8, 0x05#8, 0x4D#8, 0xAA#8])) =
    some (.waitStart, [], some .checksumError) := by decide +kernel
/-- DF-06: one byte below the minimum. -/
theorem test_ibEnd_truncated : rxView (exec .ibEnd (rxAt .inBody [0x00#8, 0x05#8, 0x4D#8])) =
    some (.waitStart, [], framing .truncated) := by decide +kernel
theorem test_ibEsc : rxView (exec .ibEsc (rxAt .inBody [0x00#8, 0x05#8, 0x41#8])) =
    some (.escPending, [0x00#8, 0x05#8, 0x41#8], none) := by decide +kernel
theorem test_ibData : rxView (exec (.ibData 0x05#8) (rxAt .inBody [0x00#8])) = some (.inBody, [0x00#8, 0x05#8], none) := by decide +kernel
/-- The example of R99, `MAX = 4`. -/
theorem test_ibData_overflow : rxView (exec (.ibData 0x41#8) (withMax 4 (rxAt .inBody (List.replicate 8 0#8)))) =
    some (.waitStart, [], some .oversizeError) := by decide +kernel
theorem test_epStart : rxView (exec .epStart (rxAt .escPending [0x00#8, 0x01#8])) = some (.inBody, [0x00#8, 0x01#8, 0x5E#8], none) := by
  decide +kernel
theorem test_epEnd : rxView (exec .epEnd (rxAt .escPending [0x00#8, 0x05#8])) = some (.inBody, [0x00#8, 0x05#8, 0x5D#8], none) := by
  decide +kernel
theorem test_epEsc : rxView (exec .epEsc (rxAt .escPending [0x00#8, 0x01#8])) = some (.inBody, [0x00#8, 0x01#8, 0x5C#8], none) := by
  decide +kernel
theorem test_epData : rxView (exec (.epData 0x5E#8) (rxAt .escPending [0x00#8, 0x05#8, 0x41#8])) =
    some (.inBody, [0x00#8, 0x05#8, 0x41#8, 0x7E#8], none) := by decide +kernel
/-- DF-25, `MAX = 0`: the overflow is raised in ESC_PENDING. -/
theorem test_epData_overflow : rxView (exec (.epData 0x5E#8) (withMax 0 (rxAt .escPending [0x00#8, 0x05#8, 0x41#8, 0x42#8]))) =
    some (.waitStart, [], some .oversizeError) := by decide +kernel
theorem test_rxIdle : rxView (exec .rxIdle (rxAt .escPending [0x00#8, 0x05#8])) = some (.escPending, [0x00#8, 0x05#8], none) := by
  decide +kernel
theorem test_rxReset : rxView (exec (.rxReset false) (rxAt .escPending [0x00#8, 0x05#8])) = some (.waitStart, [], none) := by decide +kernel
/-- RS-04: reset beats the byte. -/
theorem test_reset_beats_byte : rxView (step (given (rxAt .inBody [0x00#8]) [.rx true true 0x05#8])) = some (.waitStart, [], none) := by
  decide +kernel

/-! ### TX rows (vectors FR, TX, RS) -/

theorem test_frameData : txView (exec (.frameData 5 [0x41#8, 0x7E#8, 0x42#8]) State.reset) =
    some ([0x7E#8, 0x00#8, 0x05#8, 0x41#8, 0x7C#8, 0x5E#8, 0x42#8, 0xC4#8, 0x04#8, 0x7D#8], some .accepted, none) := by decide +kernel
/-- FR-13, `MAX = 4`. -/
theorem test_frameData_tooLarge : txView (exec (.frameData 7 [1#8, 2#8, 3#8, 4#8, 5#8]) (withMax 4 State.reset)) =
    some ([], some .payloadTooLarge, none) := by decide +kernel
theorem test_frameAck : txView (exec (.frameAck 5 []) State.reset) =
    some ([0x7E#8, 0x01#8, 0x05#8, 0x7C#8, 0x5E#8, 0x9B#8, 0x7D#8], some .accepted, none) := by decide +kernel
/-- TX-05: not taken, and the step outputs the next byte. -/
theorem test_frameAck_busy : txView (exec (.frameAck 1 []) (txAt [0x01#8, 0x01#8, 0x3E#8, 0x1F#8, 0x7D#8])) =
    some ([0x01#8, 0x3E#8, 0x1F#8, 0x7D#8], none, some 0x01#8) := by decide +kernel
theorem test_frameNack : txView (exec (.frameNack 5 []) State.reset) =
    some ([0x7E#8, 0x02#8, 0x05#8, 0x2B#8, 0xC8#8, 0x7D#8], some .accepted, none) := by decide +kernel
theorem test_frameRsvd : refusal (exec (.frameRsvd 0 []) State.reset) = some .reservedCmdType := by decide +kernel
theorem test_txEmit : txView (exec .txEmit (txAt [0x7E#8, 0x02#8, 0x05#8])) = some ([0x02#8, 0x05#8], none, some 0x7E#8) := by decide +kernel
theorem test_txEmit_idle : txView (exec .txEmit State.reset) = some ([], none, none) := by decide +kernel
theorem test_txHold : txView (exec .txHold (txAt [0x7D#8])) = some ([0x7D#8], none, none) := by decide +kernel
theorem test_txIdle : txView (exec (.txIdle true) State.reset) = some ([], none, none) := by decide +kernel
theorem test_txReset : txView (exec (.txReset 0b011#3) (txAt [0x42#8, 0xC4#8, 0x04#8, 0x7D#8])) = some ([], none, none) := by decide +kernel

/-! ### TYPE and ESC rows -/

/-- A body with TYPE byte `b`, SEQ 5 and the right checksum, in IN_BODY. -/
def typed (b : Byte) : State := rxAt .inBody ([b, 0x05#8] ++ cfgDef.check [b, 0x05#8])

theorem test_typed : (typed 0xFF#8).rx.body = [0xFF#8, 0x05#8, 0x4E#8, 0x55#8] := by decide +kernel
theorem test_typeData : rxView (exec .typeData (typed 0x00#8)) = some (.waitStart, [], pkt .data 5 []) := by decide +kernel
theorem test_typeAck : rxView (exec .typeAck (typed 0x01#8)) = some (.waitStart, [], pkt .ack 5 []) := by decide +kernel
theorem test_typeNack : rxView (exec .typeNack (typed 0x02#8)) = some (.waitStart, [], pkt .nack 5 []) := by decide +kernel
theorem test_typeRsvd0 : rxView (exec .typeRsvd0 (typed 0x03#8)) = some (.waitStart, [], framing .unknownType) := by decide +kernel
theorem test_typeRsvd1 : rxView (exec (.typeRsvd1 3#2) (typed 0x07#8)) = some (.waitStart, [], framing .unknownType) := by decide +kernel
theorem test_typeRsvd2 : rxView (exec (.typeRsvd2 0#3) (typed 0x08#8)) = some (.waitStart, [], framing .unknownType) := by decide +kernel
theorem test_typeRsvd3 : rxView (exec (.typeRsvd3 15#4) (typed 0x1F#8)) = some (.waitStart, [], framing .unknownType) := by decide +kernel
theorem test_typeRsvd4 : rxView (exec (.typeRsvd4 1#5) (typed 0x21#8)) = some (.waitStart, [], framing .unknownType) := by decide +kernel
theorem test_typeRsvd5 : rxView (exec (.typeRsvd5 63#6) (typed 0x7F#8)) = some (.waitStart, [], framing .unknownType) := by decide +kernel
theorem test_typeRsvd6 : rxView (exec (.typeRsvd6 127#7) (typed 0xFF#8)) = some (.waitStart, [], framing .unknownType) := by decide +kernel
theorem test_escStart : rxView (exec .escStart (rxAt .escPending [0x00#8])) = some (.inBody, [0x00#8, 0x7E#8], none) := by decide +kernel
theorem test_escEnd : rxView (exec .escEnd (rxAt .escPending [0x00#8])) = some (.inBody, [0x00#8, 0x7D#8], none) := by decide +kernel
theorem test_escEsc : rxView (exec .escEsc (rxAt .escPending [0x00#8])) = some (.inBody, [0x00#8, 0x7C#8], none) := by decide +kernel
theorem test_escNoncanon : rxView (exec (.escNoncanon 0x61#8) (rxAt .escPending [0x00#8])) = some (.inBody, [0x00#8, 0x41#8], none) := by
  decide +kernel
/-- R92: outside a frame no pair is open, and the START of the row is the START that begins a frame. -/
theorem test_pair_outside_frame : rxView (exec (.escNoncanon 0x7E#8) State.reset) = some (.inBody, [], none) := by decide +kernel

/-- R190: the byte that overflows a full body in ESC_PENDING reports on the event port in its own step. -/
theorem test_pairEnd_overflow : rxView (step (given (rxAt .escPending (List.replicate 68 0#8)) [.pairEnd 0x5E#8, .rx false true 0x7E#8])) =
    some (.waitStart, [], some .oversizeError) := by decide +kernel

/-! ### Pseudo-operations and output ports -/

/-- FR-01 and R72: TX.SEND while TX is idle. -/
theorem test_send : txView (.next (State.reset.send ⟨.nack, 5, []⟩)) = some ([], none, some 0x7D#8) ∧
    (State.reset.send ⟨.nack, 5, []⟩).wire = [0x7E#8, 0x02#8, 0x05#8, 0x2B#8, 0xC8#8, 0x7D#8] := by decide +kernel
/-- R72, R127: on a busy TX the frame command of TX.SEND is not taken, and the bytes queued before it are output. -/
theorem test_send_busy : ((txAt [0x0F#8, 0x7D#8]).send ⟨.nack, 5, []⟩).wire = [0x0F#8, 0x7D#8] ∧
    ((txAt [0x0F#8, 0x7D#8]).send ⟨.nack, 5, []⟩).results = [] := by decide +kernel
theorem test_evPorts : evPorts (pkt .nack 5 [0x41#8]) = ⟨true, some 0#2, some 0#2, some 2#2, some 5, some 1, some [0x41#8]⟩ ∧
    evPorts (framing .unknownType) = ⟨true, some 1#2, some 2#2, none, none, none, none⟩ ∧
    evPorts none = ⟨false, none, none, none, none, none, none⟩ := by decide
theorem test_txPorts : txPorts ⟨[0x7D#8]⟩ (some .accepted) none = ⟨false, true, some 0#1, false, none, true⟩ ∧
    txPorts ⟨[]⟩ (some .payloadTooLarge) none = ⟨true, true, some 1#1, false, none, false⟩ ∧
    txPorts ⟨[]⟩ none (some 0x7D#8) = ⟨true, false, none, true, some 0x7D#8, false⟩ := by decide

/-! ### Witnesses: an input that meets all the hypotheses of a statement, clause by clause -/

theorem witness_DecodeOfEncodeIsIdentity : cfgDef.wf = true ∧ (Instr.escNoncanon 0xFF#8).wf cfgDef = true ∧
    (Instr.frameData 255 []).wf cfgDef = true ∧ cfgSw2.wf = true ∧ (Instr.frameNack 65535 [0#8]).wf cfgSw2 = true := by decide
theorem witness_EncodeOfDecodeIsIdentity : cfgDef.wf = true ∧ decode cfgDef (.rxFeed 0x2FF#10) = .ok (.epData 0xFF#8) := ⟨by decide, rfl⟩
theorem witness_DecodedKeyLiesInItsTableRow : decode cfgDef (.rxFeed 0x07E#10) = .ok .wsStart ∧
    (Instr.wsData 0#8).tableRow.matchesWord (.rxFeed 0x07E#10) = true := ⟨rfl, by decide⟩
/-- For UnescapeOfEscapeIsIdentity, ChecksumHasFixedWidth, PowerOnMeetsTheInvariant, WireFormatSamplesAreByteSamples and the second
clause of ChecksumsDetectSingleByteChange. -/
theorem witness_wellFormedCfg : cfgDef.wf = true ∧ cfgSw2.wf = true ∧ cfgSum.wf = true ∧ cfgOwn.wf = true := by decide
theorem witness_EscapedListHasNoDelimiter : cfgDef.wf = true ∧
    cfgDef.escape [0x41#8, 0x7C#8] = [0x41#8] ++ cfgDef.ESC :: [0x5C#8] := by decide
theorem witness_ChecksumsDetectSingleByteChange : cfgDef.CHECK = .crc16_1021 ∧ cfgSum.CHECK = .sum8 := by decide
/-- A configuration that meets R6, and one that fails each of its conditions: an algorithm of the wrong width and one that fails R141
for the fifth. -/
theorem witness_ConstructionRefusesIllFormedCfg : cfgSum.MeetsR6 ∧ ¬ ({ cfgDef with END := 0x7E#8 } : Cfg).MeetsR6 ∧
    ¬ ({ cfgDef with START := 0x20#8 } : Cfg).MeetsR6 ∧ ¬ ({ cfgDef with MASK := 0x03#8 } : Cfg).MeetsR6 ∧
    ¬ ({ cfgDef with SW := 0 } : Cfg).MeetsR6 ∧ ¬ ({ cfgDef with CW := 3 } : Cfg).MeetsR6 ∧
    ¬ ({ cfgDef with CW := 1 } : Cfg).MeetsR6 ∧ ¬ ({ cfgDef with CHECK := .nonconforming 0 } : Cfg).MeetsR6 where
  left :=
    { constants := by decide
      mask := by decide
      escaped := by decide
      widths := by decide
      check := paddedSum_meetsContract 0 }
  right := ⟨fun h => absurd h.constants (by decide), fun h => absurd h.mask (by decide), fun h => absurd h.escaped (by decide),
    fun h => absurd h.widths.1 (by decide), fun h => absurd h.widths.2 (by decide),
    fun h => absurd (h.check.width []) (by decide +kernel), fun h => (Config.nonconformingCheck 0 2).fails h.check⟩

/-- A block in the middle of a frame in both directions. -/
def busyBlock : State := given { rxAt .inBody [0x00#8, 0x05#8] with tx := ⟨[0x0F#8, 0x7D#8]⟩ } [.rx false true 0x41#8]

theorem busyBlock_inv : busyBlock.Inv where
  cfg_wf := by decide
  rx :=
    { count_le := by decide
      waitStart_empty := fun h => absurd h (by decide)
      buf_wf := by decide
      buf_bounded := fun i b h => by
        have h2 : (Memory.ofBytes [0x00#8, 0x05#8]).read i = some b := h
        rw [Memory.read_ofBytes] at h2
        have : i < 2 := by simpa using (List.getElem?_eq_some_iff.1 h2).1
        exact Nat.lt_of_lt_of_le this (by decide)
      body_written := fun i h => by
        have hi : i < 2 := h
        refine ⟨[0x00#8, 0x05#8][i], ?_⟩
        show (Memory.ofBytes [0x00#8, 0x05#8]).read i = _
        rw [Memory.read_ofBytes]
        simp }
  tx := { queue_le := by decide, queue_suffix := ⟨⟨.data, 0, []⟩, by decide, by decide +kernel⟩ }
  ev := fun e h => by cases h
  events := fun e h => by cases h

theorem witness_StepKeepsTheInvariant : busyBlock.Inv ∧ ∃ t, step busyBlock = .next t :=
  ⟨busyBlock_inv, exists_next (by decide +kernel)⟩
theorem witness_ConfigurationNeverChanges : ∃ t, step busyBlock = .next t := exists_next (by decide +kernel)
theorem witness_StepRunsTheDecodedOperation : busyBlock.cfg.wf = true ∧ busyBlock.inputs = [.rx false true 0x41#8] ∧
    decode busyBlock.cfg (busyBlock.portWord (.rx false true 0x41#8)) = .ok (.ibData 0x41#8) ∧
    State.reset.cfg.wf = true ∧ State.reset.inputs = [] := ⟨by decide, rfl, rfl, by decide, rfl⟩
theorem witness_RxSampleRunsRxStep : busyBlock.cfg.wf = true ∧ busyBlock.inputs = .rx false true 0x41#8 :: [] := ⟨by decide, rfl⟩
theorem witness_TxSampleRunsTxStep : (given State.reset [.tx false (some ⟨3#2, 256, []⟩) false]).cfg.wf = true ∧
    (given State.reset [.tx false (some ⟨3#2, 256, []⟩) false]).inputs = .tx false (some ⟨3#2, 256, []⟩) false :: [] := ⟨by decide, rfl⟩
theorem witness_OnlyReservedCommandsAreRefused : (given State.reset [.tx false (some ⟨3#2, 0, []⟩) true]).cfg.wf = true ∧
    refusal (step (given State.reset [.tx false (some ⟨3#2, 0, []⟩) true])) = some .reservedCmdType ∧ State.reset.tx.q = [] := by
  decide +kernel
/-- For StartInWaitStartBeginsFrame and OtherBytesInWaitStartAreDiscarded. -/
theorem witness_waitStart : State.reset.rx.state = .waitStart ∧ State.reset.cfg.wf = true ∧ 0x00#8 ∉ State.reset.cfg.reserved := by decide
theorem witness_StartInBodyReportsUnterminated : (rxAt .inBody []).rx.state = .inBody := by decide
/-- The first two clauses. -/
theorem witness_EndInBodyCompletesTheFrame : (rxAt .inBody [0x00#8, 0x05#8, 0x4D#8]).cfg.wf = true ∧
    (rxAt .inBody [0x00#8, 0x05#8, 0x4D#8]).rx.state = .inBody ∧ (rxAt .inBody [0x00#8, 0x05#8, 0x4D#8]).rx.count < cfgDef.HDR ∧
    cfgDef.HDR ≤ (rxAt .inBody [0x00#8, 0x05#8, 0x4D#8, 0xAB#8]).rx.count ∧
    (rxAt .inBody [0x00#8, 0x05#8, 0x4D#8, 0xAB#8]).rx.body.drop 2 ≠ cfgDef.check [0x00#8, 0x05#8] := by decide +kernel
/-- For the last four clauses of EndInBodyCompletesTheFrame, for DefinedTypesDeliverThePacket, and for the row TYPE.RSVD.0 of
ReservedTypesAreUnknown. -/
theorem witness_PassesChecks : (typed 0x00#8).cfg.wf = true ∧ (typed 0x00#8).rx.PassesChecks cfgDef ∧ (typed 0x00#8).rx.body.head? = some 0x00#8 ∧
    (typed 0x01#8).rx.PassesChecks cfgDef ∧ (typed 0x01#8).rx.body.head? = some 0x01#8 ∧
    (typed 0x02#8).rx.PassesChecks cfgDef ∧ (typed 0x02#8).rx.body.head? = some 0x02#8 ∧
    (typed 0x03#8).rx.PassesChecks cfgDef ∧ (typed 0x03#8).rx.body.head? = some 0x03#8 ∧ 3 ≤ (0x03#8 : Byte).toNat := by
  unfold RxState.PassesChecks; decide +kernel
theorem witness_ReservedTypesAreUnknown : (typed 0x04#8).rx.PassesChecks cfgDef ∧ (typed 0x04#8).rx.body.head? = some (0b000001#6 ++ 0#2) ∧
    (typed 0x0F#8).rx.PassesChecks cfgDef ∧ (typed 0x0F#8).rx.body.head? = some (0b00001#5 ++ 7#3) ∧
    (typed 0x10#8).rx.PassesChecks cfgDef ∧ (typed 0x10#8).rx.body.head? = some (0b0001#4 ++ 0#4) ∧
    (typed 0x3F#8).rx.PassesChecks cfgDef ∧ (typed 0x3F#8).rx.body.head? = some (0b001#3 ++ 31#5) ∧
    (typed 0x40#8).rx.PassesChecks cfgDef ∧ (typed 0x40#8).rx.body.head? = some (0b01#2 ++ 0#6) ∧
    (typed 0xFF#8).rx.PassesChecks cfgDef ∧ (typed 0xFF#8).rx.body.head? = some (0b1#1 ++ 127#7) := by
  unfold RxState.PassesChecks; decide +kernel
theorem witness_EscInBodyEntersEscPending : (rxAt .inBody (List.replicate 68 0#8)).cfg.wf = true ∧
    (rxAt .inBody (List.replicate 68 0#8)).rx.state = .inBody ∧ (rxAt .inBody (List.replicate 68 0#8)).rx.count = cfgDef.BODY_MAX := by decide
theorem witness_DataInBodyIsAppended : (rxAt .inBody (List.replicate 67 0#8)).rx.state = .inBody ∧ 0x5E#8 ∉ cfgDef.reserved ∧
    (rxAt .inBody (List.replicate 67 0#8)).rx.count ≠ cfgDef.BODY_MAX ∧ (rxAt .inBody (List.replicate 68 0#8)).rx.count = cfgDef.BODY_MAX := by
  decide
theorem witness_AnyByteInEscPendingIsUnescaped : (rxAt .escPending (List.replicate 67 0#8)).cfg.wf = true ∧
    (rxAt .escPending (List.replicate 67 0#8)).rx.state = .escPending ∧ (rxAt .escPending (List.replicate 67 0#8)).rx.count ≠ cfgDef.BODY_MAX ∧
    (rxAt .escPending (List.replicate 68 0#8)).rx.count = cfgDef.BODY_MAX ∧ 0x61#8 ∉ cfgDef.reserved := by decide
theorem witness_StoringRowsChangeOneCell : (rxAt .inBody [0#8]).cfg.wf = true ∧ (rxAt .inBody [0#8]).rx.state = .inBody ∧
    0x41#8 ∉ cfgDef.reserved ∧ 0x41#8 ^^^ cfgDef.MASK ∉ cfgDef.reserved ∧ (rxAt .escPending [0#8]).rx.state = .escPending ∧
    (∃ t, exec (.ibData 0x41#8) (rxAt .inBody [0#8]) = .next t) ∧ (∃ t, exec .escStart (rxAt .escPending [0#8]) = .next t) ∧
    (∃ t, exec .epEnd (rxAt .escPending [0#8]) = .next t) ∧ (rxAt .inBody [0#8]).rx.count ≠ cfgDef.BODY_MAX ∧
    (rxAt .inBody (List.replicate 68 0#8)).rx.count = cfgDef.BODY_MAX :=
  ⟨by decide, by decide, by decide, by decide, by decide, exists_next (by decide +kernel), exists_next (by decide +kernel),
    exists_next (by decide +kernel), by decide, by decide⟩
theorem witness_EscapePairsStandForOneBodyByte : (rxAt .escPending (List.replicate 67 0#8)).rx.state = .escPending ∧
    (rxAt .escPending (List.replicate 68 0#8)).rx.count = cfgDef.BODY_MAX ∧ (rxAt .inBody (List.replicate 67 0#8)).rx.state = .inBody ∧
    0x41#8 = 0x61#8 ^^^ cfgDef.MASK ∧ 0x41#8 ∉ cfgDef.reserved ∧ (rxAt .inBody (List.replicate 67 0#8)).rx.count ≠ cfgDef.BODY_MAX ∧
    (rxAt .inBody (List.replicate 68 0#8)).rx.count = cfgDef.BODY_MAX := by decide
/-- For FrameCommandQueuesTheFrame, ReservedCommandIsRefusedWhileIdle, and the idle clauses of EmitOutputsTheFirstByte and
HoldAndIdleOutputNothing. -/
theorem witness_txIdle : State.reset.tx.q = [] ∧ (List.replicate 64 0x7E#8).length ≤ State.reset.cfg.MAX ∧
    State.reset.cfg.MAX < (List.replicate 65 0x7E#8).length := by decide
/-- For CommandWhileBusyIsNotTaken and the busy clause of EmitOutputsTheFirstByte. -/
theorem witness_txBusy : (txAt [0x7D#8]).tx.q = 0x7D#8 :: [] ∧ (txAt [0x7D#8]).tx.busy = true := by decide
theorem witness_EveryRowIsItsPortStep : cfgDef.wf = true ∧ (Instr.ibData 0x41#8).wf cfgDef = true ∧
    encode cfgDef (.ibData 0x41#8) = .rxFeed (1#2 ++ 0x41#8) ∧ encode cfgDef (.typeRsvd6 0#7) = .wireType 0x80#8 ∧
    encode cfgDef .escEnd = .escSeq (cfgDef.ESC ++ 0x5D#8) ∧ encode cfgDef (.rxReset true) = .rxCtrl 0b11#2 ∧
    encode cfgDef (.frameAck 5 []) = .txCmd 1#2 5 [] ∧ encode cfgDef (.txReset 0b011#3) = .txCtrl 0b1011#4 ∧
    encode cfgDef .txEmit = .txCtrl 0b0011#4 ∧ encode cfgDef (.txIdle true) = .txCtrl 0b0001#4 := by decide
theorem witness_AgentsDoNotWriteEachOther : busyBlock.cfg.wf = true ∧ busyBlock.inputs = [.rx false true 0x41#8] ∧
    (∃ t, step busyBlock = .next t) ∧ (PortInput.rx false true 0x41#8).forRx = true ∧ (PortInput.tx false none true).forRx = false ∧
    ∃ t, step (given busyBlock [.tx false none true]) = .next t :=
  ⟨by decide, rfl, exists_next (by decide +kernel), rfl, rfl, exists_next (by decide +kernel)⟩
theorem witness_AgentsDoNotReadEachOther : busyBlock.cfg = (rxAt .inBody [0x00#8, 0x05#8]).cfg ∧ busyBlock.rx = (rxAt .inBody [0x00#8, 0x05#8]).rx ∧
    busyBlock.tx ≠ (rxAt .inBody [0x00#8, 0x05#8]).tx ∧ busyBlock.tx = (txAt [0x0F#8, 0x7D#8]).tx ∧ busyBlock.rx ≠ (txAt [0x0F#8, 0x7D#8]).rx ∧
    (∃ t, step (given (rxAt .inBody [0x00#8, 0x05#8]) [.rx false true 0x41#8]) = .next t) ∧
    (∃ t, step (given (txAt [0x0F#8, 0x7D#8]) [.tx false none true]) = .next t) :=
  ⟨by decide, by decide, by decide, by decide, by decide, exists_next (by decide +kernel), exists_next (by decide +kernel)⟩
theorem witness_RxAndTxStepsCommute : cfgDef.wf = true ∧ (PortInput.pairEnd 0x5E#8).forRx = true ∧ (PortInput.tx false none true).forRx = false := by
  decide
theorem witness_AtMostOneEventPerByte : (∃ t, step (given (rxAt .inBody []) [.rx false true 0x7D#8]) = .next t) ∧
    (rxAt .inBody []).cfg.wf = true ∧ (0x7D#8 : Byte) = (rxAt .inBody []).cfg.END ∧
    rxView (step (given (rxAt .inBody []) [.rx false true 0x7D#8])) = some (.waitStart, [], framing .truncated) ∧
    rxView (step (given (rxAt .escPending (List.replicate 68 0#8)) [.rx false true 0x7E#8])) = some (.waitStart, [], some .oversizeError) :=
  ⟨exists_next (by decide +kernel), by decide, by decide, by decide +kernel, by decide +kernel⟩
theorem witness_ErrorsLeaveRxReady :
    rxView (step (given (rxAt .inBody [0#8]) [.rx false true 0x7E#8])) = some (.inBody, [], framing .unterminated) ∧
    rxView (step (given (rxAt .inBody [0#8]) [.rx false true 0x7D#8])) = some (.waitStart, [], framing .truncated) := by decide +kernel
theorem witness_FeedIsItsSteps : (given State.reset (feedSamples [0x7E#8, 0x00#8])).cfg.wf = true ∧
    (given State.reset (feedSamples [0x7E#8, 0x00#8])).inputs = feedSamples [0x7E#8, 0x00#8] ++ [] := by decide
theorem witness_BytesOutsideFramesAreDiscarded : State.reset.rx.state = .waitStart ∧ cfgDef.START ∉ [0x41#8, 0x7D#8, 0x7C#8, 0x00#8] := by decide

/-- A delimiter occurs in the list only after an escape: the one START stands behind an ESC. -/
theorem witness_BodyIsTheUnescapedInput : cfgDef.wf = true ∧ State.reset.rx.state = .waitStart ∧ (rxAt .inBody [0#8]).rx.state = .inBody ∧
    (∀ u b v, [0x00#8, 0x7C#8, 0x7E#8] = u ++ b :: v → (b = cfgDef.START ∨ b = cfgDef.END) → (cfgDef.unescape false u).2 = true) ∧
    (cfgDef.unescape false [0x00#8, 0x7C#8, 0x7E#8]).1.length ≤ cfgDef.BODY_MAX := by
  refine ⟨by decide, rfl, rfl, ?_, by decide⟩
  intro u b v h hb
  match u, h with
  | [], h => simp only [List.nil_append, List.cons.injEq] at h; obtain ⟨rfl, -⟩ := h; revert hb; decide
  | [x], h =>
    simp only [List.cons_append, List.nil_append, List.cons.injEq] at h
    obtain ⟨rfl, rfl, -⟩ := h; revert hb; decide
  | [x, y], h =>
    simp only [List.cons_append, List.nil_append, List.cons.injEq] at h
    obtain ⟨rfl, rfl, -⟩ := h; decide
  | x :: y :: z :: w, h => exact absurd (congrArg List.length h) (by simp)

/-- For FrameFedBackGivesThePacket, FrameAfterAnyBytesResynchronises, FrameLengthsAreBounded and the first two
clauses of SendAndLoopbackCarryThePacket. -/
theorem witness_packets : cfgDef.wf = true ∧ Packet.wf cfgDef ⟨.data, 255, List.replicate 64 0x7E#8⟩ = true ∧
    Packet.wf cfgDef ⟨.ack, 0, []⟩ = true ∧ State.reset.rx.state = .waitStart ∧ State.reset.tx.q = [] := by decide
theorem witness_SendAndLoopbackCarryThePacket : (txAt [0x0F#8, 0x7D#8]).tx.q ≠ [] := by decide
/-- The two states of the clauses. -/
theorem witness_FrameAfterAnyBytesResynchronises : (rxFeedAll cfgDef State.reset.rx [0x41#8]).1.state = .waitStart ∧
    (rxFeedAll cfgDef State.reset.rx [0x7E#8, 0x41#8]).1.state = .inBody := by decide +kernel

/-- Both kinds of change: (a) the second byte of a pair, and (b) a data byte. -/
theorem witness_OneChangedBodyByteIsChecksumError : cfgSum.wf = true ∧
    Packet.wf cfgSum ⟨.data, 0x7E, []⟩ = true ∧ State.reset.rx.state = .waitStart ∧
    cfgSum.escape (Packet.body cfgSum ⟨.data, 0x7E, []⟩) = [0x00#8, 0x7C#8] ++ 0x5E#8 :: [0x7C#8, 0x5E#8] ∧
    (cfgSum.unescape false [0x00#8, 0x7C#8]).2 = true ∧
    cfgSum.escape (Packet.body cfgSum ⟨.data, 0x7E, []⟩) = [] ++ 0x00#8 :: [0x7C#8, 0x5E#8, 0x7C#8, 0x5E#8] ∧
    cfgSum.isReserved 0x00#8 = false ∧ cfgSum.isReserved 0x5E#8 = false := by decide +kernel

theorem witness_OverlongFrameIsOneOversizeError : cfgDef.wf = true ∧ State.reset.rx.state = .waitStart ∧
    cfgDef.MAX < (Packet.mk .data 0 (List.replicate 65 0#8)).payload.length := by decide
theorem witness_IdleStepsKeepThePartialFrame : (given (rxAt .escPending [0#8]) [.rx false false 0#8, .rx false false 0#8]).cfg.wf = true ∧
    (given (rxAt .escPending [0#8]) [.rx false false 0#8, .rx false false 0#8]).inputs = List.replicate 2 (.rx false false 0#8) ++ [] := by decide
theorem witness_QueueDrainsInItsLength : (given (txAt [0x0F#8, 0x7D#8]) (List.replicate 2 (.tx false none true))).cfg.wf = true ∧
    (given (txAt [0x0F#8, 0x7D#8]) (List.replicate 2 (.tx false none true))).inputs = List.replicate 2 (.tx false none true) ++ [] := by decide
theorem witness_StalledSinkKeepsTxBusy : (txAt [0x7D#8]).cfg.wf = true ∧ (txAt [0x7D#8]).tx.q ≠ [] ∧
    1 ≤ (given (txAt [0x7D#8]) [.tx false (some ⟨0#2, 0, []⟩) false]).inputs.length ∧
    (∀ p ∈ (given (txAt [0x7D#8]) [.tx false (some ⟨0#2, 0, []⟩) false]).inputs.take 1, ∃ cmd, p = .tx false cmd false) := by
  refine ⟨by decide, by decide, by decide, ?_⟩
  intro p hp
  simp only [given, List.take_succ_cons, List.take_zero, List.mem_singleton] at hp
  exact ⟨_, hp⟩
theorem witness_WireCarriesTheAcceptedFrames : (∀ p ∈ (given State.reset [.tx false (some ⟨0#2, 5, []⟩) true]).inputs.take 1, p.resetsTx = false) ∧
    (State.acceptedIn 1 (given State.reset [.tx false (some ⟨0#2, 5, []⟩) true])) = [⟨.data, 5, []⟩] ∧
    ∃ t, runSteps 1 (given State.reset [.tx false (some ⟨0#2, 5, []⟩) true]) = .next t :=
  ⟨by decide, by decide +kernel, exists_next (by decide +kernel)⟩
/-- The one hypothesis of its clauses: an event that is no framing error. -/
theorem witness_PortCodesFollowTheTables : ∀ g, Event.checksumError ≠ .framingError g := fun g h => by cases h

end Sys2Proof.Tests
end

/-! PROOF. The two checksums of the spec meet the contract of R141 (R145, R146). -/

namespace Sys2Proof

/-- A left fold whose step is injective in the accumulator is injective in its starting value. -/
theorem foldl_injective {α β : Type} {f : α → β → α} (hf : ∀ b, Function.Injective (f · b)) (l : List β) :
    Function.Injective (l.foldl f ·) := by
  induction l with
  | nil => exact Function.injective_id
  | cons b l ih => exact ih.comp (hf b)

/-- The one idea behind R141 property 3: the two folds agree up to the changed byte, part there because the step is injective in the
byte, and never meet again because it is injective in the accumulator. -/
theorem foldl_ne_of_one_change {α β : Type} {f : α → β → α} (hacc : ∀ b, Function.Injective (f · b))
    (helt : ∀ a, Function.Injective (f a)) (a : α) (u v : List β) {x y : β} (hxy : x ≠ y) :
    (u ++ x :: v).foldl f a ≠ (u ++ y :: v).foldl f a := by
  rw [List.foldl_append, List.foldl_append, List.foldl_cons, List.foldl_cons]
  exact fun h => hxy (helt _ (foldl_injective hacc v h))

/-- The polynomial 0x1021 has bit 0 set, so the bit shifted out at the top is kept at the bottom. -/
theorem crcBit_getLsbD_zero (x : BitVec 16) : (crcBit x).getLsbD 0 = x.getLsbD 15 := by
  unfold crcBit
  split <;> simp_all

theorem crcBit_injective : Function.Injective crcBit := by
  intro x y h
  have htop : x.getLsbD 15 = y.getLsbD 15 := by rw [← crcBit_getLsbD_zero, h, crcBit_getLsbD_zero]
  have hshift : x <<< 1 = y <<< 1 := by
    unfold crcBit at h
    rw [htop] at h
    split at h
    · exact (BitVec.xor_left_inj _).1 h
    · exact h
  ext i hi
  obtain rfl | hlt : i = 15 ∨ i + 1 < 16 := by omega
  · exact htop
  · simpa [hlt] using congrArg (·.getLsbD (i + 1)) hshift

theorem crcBits_injective (n : Nat) : Function.Injective (crcBits n) := by
  induction n with
  | zero => exact Function.injective_id
  | succ n ih => exact ih.comp crcBit_injective

theorem crcByte_injective_crc (b : Byte) : Function.Injective (crcByte · b) :=
  fun _ _ h => (BitVec.xor_left_inj _).1 (crcBits_injective 8 h)

theorem crcByte_injective_byte (crc : BitVec 16) : Function.Injective (crcByte crc) := by
  intro x y h
  have hword : x.setWidth 16 <<< 8 = y.setWidth 16 <<< 8 := (BitVec.xor_right_inj _).1 (crcBits_injective 8 h)
  refine BitVec.eq_of_getLsbD_eq fun i hi => ?_
  have hlt : i + 8 < 16 := by omega
  simpa [hlt] using congrArg (·.getLsbD (i + 8)) hword

theorem crc16_eq_of_crc16Bytes_eq {l m : List Byte} (h : crc16Bytes l = crc16Bytes m) : crc16 l = crc16 m := by
  simp only [crc16Bytes, List.cons.injEq, and_true] at h
  obtain ⟨hhigh, hlow⟩ := h
  have join (w : BitVec 16) : (w.extractLsb' 8 8 ++ w.extractLsb' 0 8 : BitVec 16) = w := by
    rw [BitVec.extractLsb'_append_extractLsb'_eq_extractLsb' (by decide)]
    simp
  rw [← join (crc16 l), hhigh, hlow, join]

theorem crc16Bytes_meetsContract : MeetsContract crc16Bytes 2 where
  width _ := rfl
  detects u v _ _ hxy h :=
    foldl_ne_of_one_change crcByte_injective_crc crcByte_injective_byte _ u v hxy (crc16_eq_of_crc16Bytes_eq h)

theorem sum8_meetsContract : MeetsContract (fun l => [sum8 l]) 1 where
  width _ := rfl
  detects u v _ _ hxy h :=
    foldl_ne_of_one_change add_left_injective add_right_injective _ u v hxy (List.cons.inj h).1

theorem Cfg.check_crc16 {c : Cfg} (hk : c.CHECK = .crc16_1021) : c.check = crc16Bytes := by
  funext l; simp [Cfg.check, hk]

theorem Cfg.check_sum8 {c : Cfg} (hk : c.CHECK = .sum8) : c.check = fun l => [sum8 l] := by
  funext l; simp [Cfg.check, hk]

end Sys2Proof

/-! PROOF. Construction is refused exactly where R6 fails (R155 point 2, R180). -/

namespace Sys2Proof

/-- R6 condition 5 is the contract of R141, at every width that condition 4 allows. -/
theorem Cfg.checkConforms_iff {c : Cfg} (hw : c.widthsLegal = true) :
    c.checkConforms = true ↔ MeetsContract c.check c.CW := by
  cases hk : c.CHECK with
  | crc16_1021 =>
    rw [Cfg.check_crc16 hk]
    simp only [Cfg.checkConforms, hk, beq_iff_eq]
    exact ⟨fun h => h ▸ crc16Bytes_meetsContract, fun h => (h.width []).symm⟩
  | sum8 =>
    rw [Cfg.check_sum8 hk]
    simp only [Cfg.checkConforms, hk, beq_iff_eq]
    exact ⟨fun h => h ▸ sum8_meetsContract, fun h => (h.width []).symm⟩
  | conforming k =>
    obtain ⟨n, hn⟩ : ∃ n, c.CW = n + 1 := Nat.exists_eq_succ_of_ne_zero (by intro h; simp [Cfg.widthsLegal, h] at hw)
    rw [Cfg.check_conforming hk hn, hn]
    simp only [Cfg.checkConforms, hk, true_iff]
    exact (Config.conformingCheck k n).contract
  | nonconforming k =>
    rw [Cfg.check_nonconforming hk]
    simp only [Cfg.checkConforms, hk, Bool.false_eq_true, false_iff]
    exact (Config.nonconformingCheck k c.CW).fails

theorem Cfg.isReserved_iff (c : Cfg) (b : Byte) : c.isReserved b = true ↔ b ∈ [c.START, c.END, c.ESC] := by
  simp [Cfg.isReserved, or_assoc]

theorem Cfg.constantsDistinct_iff (c : Cfg) :
    c.constantsDistinct = true ↔ c.START ≠ c.END ∧ c.START ≠ c.ESC ∧ c.END ≠ c.ESC := by
  simp [Cfg.constantsDistinct, and_assoc]

theorem Cfg.maskNotReserved_iff (c : Cfg) : c.maskNotReserved = true ↔ c.MASK ∉ [c.START, c.END, c.ESC] := by
  rw [← c.isReserved_iff, Cfg.maskNotReserved, Bool.not_eq_true', Bool.not_eq_true]

theorem Cfg.escapedNotReserved_iff (c : Cfg) :
    c.escapedNotReserved = true ↔ ∀ r ∈ [c.START, c.END, c.ESC], r ^^^ c.MASK ∉ [c.START, c.END, c.ESC] := by
  simp only [← c.isReserved_iff, Cfg.escapedNotReserved, Cfg.reserved, List.all_eq_true, Bool.not_eq_true', Bool.not_eq_true]

theorem Cfg.widthsLegal_iff (c : Cfg) : c.widthsLegal = true ↔ c.SW ∈ [1, 2] ∧ c.CW ∈ [1, 2] := by
  simp [Cfg.widthsLegal]

theorem Cfg.wf_iff_meetsR6 (c : Cfg) : c.wf = true ↔ c.MeetsR6 := by
  constructor
  · intro h
    simp only [Cfg.wf, Bool.and_eq_true] at h
    obtain ⟨⟨⟨⟨hconst, hmask⟩, hesc⟩, hwidths⟩, hcheck⟩ := h
    exact { constants := c.constantsDistinct_iff.1 hconst
            mask := c.maskNotReserved_iff.1 hmask
            escaped := c.escapedNotReserved_iff.1 hesc
            widths := c.widthsLegal_iff.1 hwidths
            check := (Cfg.checkConforms_iff hwidths).1 hcheck }
  · intro h
    have hwidths := c.widthsLegal_iff.2 h.widths
    simp only [Cfg.wf, Bool.and_eq_true]
    exact ⟨⟨⟨⟨c.constantsDistinct_iff.2 h.constants, c.maskNotReserved_iff.2 h.mask⟩,
      c.escapedNotReserved_iff.2 h.escaped⟩, hwidths⟩, (Cfg.checkConforms_iff hwidths).2 h.check⟩

/-- Condition 3 of R6 makes the mask change every reserved byte. -/
theorem Cfg.MeetsR6.mask_ne_zero {c : Cfg} (h : c.MeetsR6) : c.MASK ≠ 0x00#8 := by
  intro hz
  have hstart : c.START ^^^ c.MASK ∉ [c.START, c.END, c.ESC] := h.escaped c.START (by simp)
  simp [hz] at hstart

namespace Machine

theorem construct_of_wf {c : Cfg} (h : c.wf = true) : State.construct c = .next (State.powerOn c) := if_pos h

theorem construct_of_not_wf {c : Cfg} (h : ¬ c.wf = true) : State.construct c = .refused .illFormedCfg := if_neg h

theorem step_of_not_wf {s : State} (h : ¬ s.cfg.wf = true) : step s = .refused .illFormedCfg := if_neg h

/-- Settles O13: the model's check `Cfg.wf` is R6, and construction and the step test it. -/
theorem constructionRefusesIllFormedCfg : Obligations.ConstructionRefusesIllFormedCfg := by
  unfold Obligations.ConstructionRefusesIllFormedCfg
  simp only [← Cfg.wf_iff_meetsR6]
  exact ⟨fun c h => ⟨construct_of_wf h, ((c.wf_iff_meetsR6).1 h).mask_ne_zero⟩, fun _ => construct_of_not_wf,
    fun _ => step_of_not_wf, by decide, rfl, rfl, rfl⟩

end Machine

end Sys2Proof

/-! PROOF. The samples read by their pair and by their TYPE byte are byte samples (log 11, log 12). -/

namespace Sys2Proof.Machine

/-- A step on a port sample runs the row that the sample selects in the present state, with the sample consumed. -/
theorem step_eq_exec_sampleRow {s : State} {p : PortInput} {rest : List PortInput} (hc : s.cfg.wf = true)
    (hp : s.inputs = p :: rest) : step s = exec (sampleRow s p) { s with inputs := rest } :=
  step_of_sample hc hp (decode_portWord s p)

theorem step_rx_byte {s : State} {b : Byte} {rest : List PortInput} (hc : s.cfg.wf = true)
    (hp : s.inputs = .rx false true b :: rest) : step s = .next ({ s with inputs := rest }.feedByte b) := by
  rw [step_eq_exec_sampleRow hc hp]
  exact exec_feedRow { s with inputs := rest } s.rx.state b

theorem step_pairEnd {s : State} {x : Byte} {rest : List PortInput} (hc : s.cfg.wf = true)
    (hp : s.inputs = .pairEnd x :: rest) : step s = .next ({ s with inputs := rest }.feedByte x) := by
  rw [step_eq_exec_sampleRow hc hp, sampleRow]
  split
  · exact exec_pairRowOf { s with inputs := rest } x
  · exact exec_feedRow { s with inputs := rest } s.rx.state x

theorem step_frameEnd {s : State} {rest : List PortInput} (hc : s.cfg.wf = true)
    (hp : s.inputs = .frameEnd :: rest) : step s = .next ({ s with inputs := rest }.feedByte s.cfg.END) := by
  rw [step_eq_exec_sampleRow hc hp, sampleRow]
  split
  · exact exec_decodeWireType (s := { s with inputs := rest }) _ hc
  · exact exec_feedRow { s with inputs := rest } s.rx.state s.cfg.END

/-- Settles O20: all three samples step to `State.feedByte` of their byte, END's for the frame end (R90). -/
theorem wireFormatSamplesAreByteSamples : Obligations.WireFormatSamplesAreByteSamples := by
  intro s x rest hc
  have hbyte (b : Byte) : step { s with inputs := .rx false true b :: rest } = .next ({ s with inputs := rest }.feedByte b) :=
    step_rx_byte hc rfl
  constructor
  · rw [hbyte]; exact step_pairEnd hc rfl
  · rw [hbyte]; exact step_frameEnd hc rfl

end Sys2Proof.Machine

/-! PROOF. What the step of a sample is: one RX step or one TX step of the sample's agent, and nothing else (R29, R90, R120). -/

namespace Sys2Proof.Machine

theorem step_of_no_sample {s : State} (hc : s.cfg.wf = true) (hp : s.inputs = []) :
    step s = .next (s.commitRx (rxKeep s.rx)) := by
  rw [step, if_pos hc, State.fetch, hp]
  rfl

theorem step_rx {s : State} {rst valid : Bool} {b : Byte} {rest : List PortInput} (hc : s.cfg.wf = true)
    (hp : s.inputs = .rx rst valid b :: rest) :
    step s = .next ({ s with inputs := rest }.commitRx (rxStep s.cfg rst (if valid then some b else none) s.rx)) := by
  cases rst with
  | true => rw [step_eq_exec_sampleRow hc hp]; rfl
  | false =>
    cases valid with
    | true => exact step_rx_byte hc hp
    | false => rw [step_eq_exec_sampleRow hc hp]; rfl

/-- Every RX sample is one RX step, whose reset and byte depend on the sample and the configuration alone. -/
theorem step_forRx {p : PortInput} (hp : p.forRx = true) (c : Cfg) :
    ∃ (rst : Bool) (byte : Option Byte), ∀ (s : State) (rest : List PortInput), s.cfg = c → c.wf = true → s.inputs = p :: rest →
      step s = .next ({ s with inputs := rest }.commitRx (rxStep c rst byte s.rx)) := by
  cases p with
  | rx rst valid b => exact ⟨rst, if valid then some b else none, by rintro s rest rfl hc hs; exact step_rx hc hs⟩
  | tx rst cmd ready => cases hp
  | pairEnd x => exact ⟨false, some x, by rintro s rest rfl hc hs; exact step_pairEnd hc hs⟩
  | frameEnd => exact ⟨false, some c.END, by rintro s rest rfl hc hs; exact step_frameEnd hc hs⟩

theorem PortInput.eq_tx_of_not_forRx {p : PortInput} (h : p.forRx = false) : ∃ rst cmd ready, p = .tx rst cmd ready := by
  cases p with
  | tx rst cmd ready => exact ⟨rst, cmd, ready, rfl⟩
  | rx rst valid b => cases h
  | pairEnd x => cases h
  | frameEnd => cases h

/-- The outcome of a TX step: its result committed, or the refusal of R126. -/
def State.txOutcome (s : State) (o : Option TxOut) : Host.Outcome State Fault Refusal :=
  o.elim (.refused .reservedCmdType) fun u => .next (s.commitTx u)

/-- While TX is idle a command is accepted as the packet it asks for, or refused where it asks for none (R122, R126). -/
theorem txStep_idle_cmd {c : Cfg} {t : TxState} (k : Cmd) (ready : Bool) (h : t.busy = false) :
    txStep c false (some (k.onPort c)) ready t = (k.packet? c).map (txAccept c) := by
  simp only [Cmd.packet?, apply_ite (Option.map (txAccept c)), txStep, h]
  rfl

theorem State.frameRow_idle {s : State} (p : Packet) (h : s.tx.busy = false) :
    s.frameRow p = s.txOutcome (some (txAccept s.cfg p)) := by
  rw [State.frameRow, State.frameLine_idle p h]
  rfl

theorem execFrameRsvd_idle {s : State} (seq : Nat) (payload : List Byte) (h : s.tx.busy = false) :
    execFrameRsvd seq payload s = s.txOutcome none := by
  rw [execFrameRsvd, h]
  rfl

theorem exec_cmdRow_idle {s : State} (k : Cmd) (h : s.tx.busy = false) :
    exec (cmdRow s.cfg k) s = s.txOutcome ((k.packet? s.cfg).map (txAccept s.cfg)) := by
  unfold cmdRow Cmd.packet?
  split_ifs
  · exact State.frameRow_idle _ h
  · exact State.frameRow_idle _ h
  · exact State.frameRow_idle _ h
  · exact execFrameRsvd_idle (portSeq s.cfg k.seq) k.payload h

/-- The step of a TX sample is `tx_step` (R120). -/
theorem step_tx {s : State} {rst : Bool} {cmd : Option Cmd} {ready : Bool} {rest : List PortInput} (hc : s.cfg.wf = true)
    (hp : s.inputs = .tx rst cmd ready :: rest) :
    step s = { s with inputs := rest }.txOutcome (txStep s.cfg rst (cmd.map (Cmd.onPort s.cfg)) ready s.tx) := by
  rw [step_eq_exec_sampleRow hc hp]
  cases rst with
  | true => rfl
  | false =>
    cases hb : s.tx.busy with
    | true => cases ready <;> simp only [sampleRow, txStep, hb] <;> rfl
    | false =>
      cases cmd with
      | none => simp only [sampleRow, txStep, hb, exec, execTxIdle]; rfl
      | some k =>
        rw [Option.map_some, txStep_idle_cmd k ready hb]
        simpa [sampleRow, hb] using exec_cmdRow_idle (s := { s with inputs := rest }) k hb

theorem step_tx_next {s t : State} {rst : Bool} {cmd : Option Cmd} {ready : Bool} {rest : List PortInput} (hc : s.cfg.wf = true)
    (hp : s.inputs = .tx rst cmd ready :: rest) (h : step s = .next t) :
    ∃ o, txStep s.cfg rst (cmd.map (Cmd.onPort s.cfg)) ready s.tx = some o ∧ t = { s with inputs := rest }.commitTx o := by
  rw [step_tx hc hp] at h
  cases ho : txStep s.cfg rst (cmd.map (Cmd.onPort s.cfg)) ready s.tx with
  | none => rw [ho] at h; cases h
  | some o => rw [ho] at h; cases h; exact ⟨o, rfl, rfl⟩

theorem cfg_wf_of_step_next {s t : State} (h : step s = .next t) : s.cfg.wf = true := by
  by_contra hc
  rw [step_of_not_wf hc] at h
  cases h

/-- The inversion of a step: it consumes a sample at most and commits one RX step or one TX step. -/
theorem step_next_cases {s t : State} (h : step s = .next t) :
    (∃ rest rst byte, t = { s with inputs := rest }.commitRx (rxStep s.cfg rst byte s.rx)) ∨
    (∃ rest rst cmd ready o, txStep s.cfg rst cmd ready s.tx = some o ∧ t = { s with inputs := rest }.commitTx o) := by
  have hc := cfg_wf_of_step_next h
  cases hp : s.inputs with
  | nil =>
    rw [step_of_no_sample hc hp] at h
    cases h
    exact .inl ⟨s.inputs, false, none, rfl⟩
  | cons p rest =>
    cases hk : p.forRx with
    | true =>
      obtain ⟨rst, byte, hstep⟩ := step_forRx hk s.cfg
      rw [hstep s rest rfl hc hp] at h
      cases h
      exact .inl ⟨rest, rst, byte, rfl⟩
    | false =>
      obtain ⟨rst, cmd, ready, rfl⟩ := PortInput.eq_tx_of_not_forRx hk
      exact .inr ⟨rest, rst, _, ready, step_tx_next hc hp h⟩

/-- Settles O16: neither commit writes the configuration. -/
theorem configurationNeverChanges : Obligations.ConfigurationNeverChanges := by
  intro s t h
  obtain ⟨_, _, _, rfl⟩ | ⟨_, _, _, _, _, -, rfl⟩ := step_next_cases h
  · rfl
  · rfl

end Sys2Proof.Machine

/-! PROOF. Neither agent writes or reads the other's state (R29). -/

namespace Sys2Proof.Machine

/-- Settles O42: an RX sample steps to a `commitRx`, a TX sample to a `commitTx`. -/
theorem agentsDoNotWriteEachOther : Obligations.AgentsDoNotWriteEachOther := by
  intro s t p rest hc hp h
  constructor
  · intro hk
    obtain ⟨rst, byte, hstep⟩ := step_forRx hk s.cfg
    rw [hstep s rest rfl hc hp] at h
    cases h
    exact ⟨rfl, rfl, rfl, rfl, rfl⟩
  · intro hk
    obtain ⟨rst, cmd, ready, rfl⟩ := PortInput.eq_tx_of_not_forRx hk
    obtain ⟨o, -, rfl⟩ := step_tx_next hc hp h
    exact ⟨rfl, rfl, rfl⟩

/-- Settles O43: the RX or TX result that a sample's step commits is a function of the configuration, the sample and the state of the
sample's own agent. -/
theorem agentsDoNotReadEachOther : Obligations.AgentsDoNotReadEachOther := by
  intro s s' t t' p rest rest' hc hcfg hp hp' h h'
  have hc' : s'.cfg.wf = true := hcfg ▸ hc
  constructor
  · intro hk hrx
    obtain ⟨rst, byte, hstep⟩ := step_forRx hk s.cfg
    rw [hstep s rest rfl hc hp] at h
    rw [hstep s' rest' hcfg.symm hc hp'] at h'
    cases h
    cases h'
    simp only [State.commitRx_rx, State.commitRx_ev, hrx, and_self]
  · intro hk htx
    obtain ⟨rst, cmd, ready, rfl⟩ := PortInput.eq_tx_of_not_forRx hk
    obtain ⟨o, ho, rfl⟩ := step_tx_next hc hp h
    obtain ⟨o', ho', rfl⟩ := step_tx_next hc' hp' h'
    rw [← hcfg, ← htx, ho] at ho'
    cases ho'
    exact ⟨rfl, rfl, rfl⟩

end Sys2Proof.Machine

/-! PROOF. The power-on state meets the invariant (R33, R179). -/

namespace Sys2Proof.Machine

/-- RX outside a frame with an unwritten buffer. -/
theorem RxState.inv_empty (c : Cfg) : RxState.Inv c ⟨.waitStart, 0, []⟩ where
  count_le := Nat.zero_le _
  waitStart_empty _ := rfl
  buf_wf := Memory.empty_wf
  buf_bounded _ _ h := by cases h
  body_written _ h := absurd h (Nat.not_lt_zero _)

/-- The empty queue is what is left of any frame, so also of that of an empty packet. -/
theorem TxState.inv_nil (c : Cfg) : TxState.Inv c ⟨[]⟩ where
  queue_le := Nat.zero_le _
  queue_suffix := ⟨⟨.data, 0, []⟩, by simp [Packet.wf], List.nil_suffix⟩

/-- Settles O14: power-on is RX outside a frame, an empty queue and no event. -/
theorem powerOnMeetsTheInvariant : Obligations.PowerOnMeetsTheInvariant := fun c hc =>
  { cfg_wf := hc
    rx := RxState.inv_empty c
    tx := TxState.inv_nil c
    ev := fun _ h => by cases h
    events := fun _ h => by cases h }

end Sys2Proof.Machine

/-! PROOF. The keys that are no row of the opcode table, format by format (R20, R66, R74). -/

namespace Sys2Proof

/-- A word begins with the field `a` exactly where its upper field is `a`. -/
theorem extract_upper_eq_iff {m n : Nat} (x : BitVec (m + n)) (a : BitVec m) :
    x.extractLsb' n m = a ↔ ∃ low : BitVec n, x = a ++ low := by
  constructor
  · rintro rfl
    refine ⟨x.extractLsb' 0 n, ?_⟩
    rw [BitVec.extractLsb'_append_extractLsb'_eq_extractLsb' (by simp)]
    simp
  · rintro ⟨low, rfl⟩
    exact extract_upper a low

theorem decodeRxFeed_eq_error {c : Cfg} {key : BitVec 10} {e : Reject} :
    decodeRxFeed c key = .error e ↔ e = .rxStateThree ∧ ∃ b : Byte, key = 3#2 ++ b := by
  rw [← extract_upper_eq_iff (m := 2) (n := 8) key 3#2]
  simp only [decodeRxFeed]
  generalize key.extractLsb' 8 2 = code
  split_ifs with h0 h1 h2
  · simp [h0]
  · simp [h1]
  · simp [h2]
  · have h3 : code = 3#2 := by bv_omega
    simp [h3, eq_comm]

theorem decodeRxCtrl_eq_error {key : BitVec 2} {e : Reject} :
    decodeRxCtrl key = .error e ↔ e = .rxBytePresent ∧ key = 0b01#2 := by
  have hkey : key = 0b01#2 ↔ key.getLsbD 1 = false ∧ key.getLsbD 0 = true := by revert key; decide
  rw [hkey]
  unfold decodeRxCtrl
  generalize key.getLsbD 1 = rst, key.getLsbD 0 = valid
  split_ifs with hrst hvalid
  · simp [hrst]
  · simp [hrst, hvalid, eq_comm (b := e)]
  · simp [hvalid]

theorem decodeTxCmd_eq_error {c : Cfg} {k : BitVec 2} {seq : Nat} {payload : List Byte} {e : Reject} :
    decodeTxCmd c k seq payload = .error e ↔ e = .seqTooWide ∧ 256 ^ c.SW ≤ seq := by
  unfold decodeTxCmd
  split_ifs with hseq
  · simp [hseq, eq_comm]
  all_goals simp [hseq]

theorem decodeTxCtrl_eq_error {key : BitVec 4} {e : Reject} :
    decodeTxCtrl key = .error e ↔ e = .txCommandTaken ∧ ∃ low : BitVec 2, key = 0b01#2 ++ low := by
  have hkey : key.extractLsb' 2 2 = 0b01#2 ↔ key.getLsbD 3 = false ∧ key.getLsbD 2 = true := by revert key; decide
  rw [← extract_upper_eq_iff (m := 2) (n := 2) key 0b01#2, hkey]
  unfold decodeTxCtrl
  generalize key.getLsbD 3 = rst, key.getLsbD 2 = taken
  split_ifs with hrst htaken
  · simp [hrst]
  · simp [hrst, htaken, eq_comm (b := e)]
  all_goals simp [htaken]

theorem decodeEscSeq_eq_error {c : Cfg} {pair : BitVec 16} {e : Reject} :
    decodeEscSeq c pair = .error e ↔ e = .pairWithoutEsc ∧ ∃ a b : Byte, pair = a ++ b ∧ a ≠ c.ESC := by
  have hfirst : (∃ a b : Byte, pair = a ++ b ∧ a ≠ c.ESC) ↔ pair.extractLsb' 8 8 ≠ c.ESC := by
    constructor
    · rintro ⟨a, b, rfl, ha⟩
      rwa [extract_upper (m := 8) (n := 8)]
    · intro h
      obtain ⟨b, hb⟩ := (extract_upper_eq_iff (m := 8) (n := 8) pair _).1 rfl
      exact ⟨_, b, hb, h⟩
  rw [hfirst]
  unfold decodeEscSeq
  split_ifs with h
  · simp [h]
  · simp [h, eq_comm]

/-- Settles O5: one rejection per format, none in `wire_type`. -/
theorem rejectedKeysAreExactlyThese : Obligations.RejectedKeysAreExactlyThese := by
  intro c w e
  cases w with
  | rxFeed key => simpa [decode] using decodeRxFeed_eq_error
  | rxCtrl key => simpa [decode] using decodeRxCtrl_eq_error
  | txCmd k seq payload => simpa [decode] using decodeTxCmd_eq_error
  | txCtrl key => simpa [decode] using decodeTxCtrl_eq_error
  | wireType b => simp [decode]
  | escSeq pair => simpa [decode] using decodeEscSeq_eq_error

end Sys2Proof

/-! PROOF. An RX step and a TX step run in either order give the same outcome (R49, log 5). -/

namespace Sys2Proof.Machine

theorem runSteps_one (s : State) : runSteps 1 s = step s := by
  cases h : step s with
  | next t => rw [runSteps_succ_of_next 0 h, runSteps_zero]
  | fault f => cases f
  | refused r => exact runSteps_succ_of_refused 0 h

/-- Every TX sample is one TX step, whose result is a function of the TX state, the sample and the configuration alone. -/
theorem step_not_forRx {q : PortInput} (hq : q.forRx = false) (c : Cfg) :
    ∃ f : TxState → Option TxOut, ∀ (s : State) (rest : List PortInput), s.cfg = c → c.wf = true → s.inputs = q :: rest →
      step s = { s with inputs := rest }.txOutcome (f s.tx) := by
  obtain ⟨rst, cmd, ready, rfl⟩ := PortInput.eq_tx_of_not_forRx hq
  exact ⟨txStep c rst (cmd.map (Cmd.onPort c)) ready, by rintro s rest rfl hc hs; exact step_tx hc hs⟩

/-- Settles O44: the RX and the TX result depend on the configuration and their own agent's state, which the other agent's step
leaves alone, and the two commits write disjoint fields; a TX refusal ends the run in both orders. -/
theorem rxAndTxStepsCommute : Obligations.RxAndTxStepsCommute := by
  intro s p q rest hc hp hq
  obtain ⟨rst, byte, hrx⟩ := step_forRx hp s.cfg
  obtain ⟨f, htx⟩ := step_not_forRx hq s.cfg
  have hrxStep (u : State) (l : List PortInput) (hu : u.cfg = s.cfg) :
      step { u with inputs := p :: l } = .next { u.commitRx (rxStep s.cfg rst byte u.rx) with inputs := l } :=
    hrx { u with inputs := p :: l } l hu hc rfl
  have htxStep (u : State) (l : List PortInput) (hu : u.cfg = s.cfg) :
      step { u with inputs := q :: l } = { u with inputs := l }.txOutcome (f u.tx) :=
    htx { u with inputs := q :: l } l hu hc rfl
  have htxFirst := htxStep s (p :: rest) rfl
  rw [runSteps_succ_of_next 1 (hrxStep s (q :: rest) rfl), runSteps_one, htxStep _ rest (by rfl), State.commitRx_tx]
  cases ho : f s.tx with
  | none =>
    rw [ho] at htxFirst
    exact (runSteps_succ_of_refused 1 htxFirst).symm
  | some o =>
    rw [ho] at htxFirst
    rw [runSteps_succ_of_next 1 htxFirst, runSteps_one, State.commitTx_withInputs, hrxStep (s.commitTx o) rest rfl,
      State.commitTx_rx, State.commitRx_commitTx]
    rfl

end Sys2Proof.Machine

/-! PROOF. Decoding the key of a well-formed operation gives it back, format by format (R62, R60, R66, R74). -/

namespace Sys2Proof

open Machine (RxSeq feedRow pairRowOf decode_rxFeedKey)

theorem Cfg.not_isReserved_iff {c : Cfg} {b : Byte} : (!c.isReserved b) = true ↔ c.classOf b = .cData := by
  rw [Cfg.classOf_eq_cData, Bool.not_eq_true']

/-- The byte of an `rx_feed` row is of the row's class, so the row read in its state is the row itself. -/
theorem decode_of_encode_rxFeed {c : Cfg} {i : Instr} {key : BitVec 10} (hc : c.wf = true) (hi : i.wf c = true)
    (hk : encode c i = .rxFeed key) : decode c (.rxFeed key) = .ok i := by
  have hws (b : Byte) := decode_rxFeedKey c .waitStart b
  have hib (b : Byte) := decode_rxFeedKey c .inBody b
  have hep (b : Byte) := decode_rxFeedKey c .escPending b
  simp only [RxSeq.code, feedRow, decodeWaitStart, decodeInBody, decodeEscPending] at hws hib hep
  rw [← hk]
  cases i with
  | wsStart | ibStart | epStart => simp [encode, hws, hib, hep, Cfg.classOf_START]
  | wsEnd | ibEnd | epEnd => simp [encode, hws, hib, hep, Cfg.classOf_END hc]
  | wsEsc | ibEsc | epEsc => simp [encode, hws, hib, hep, Cfg.classOf_ESC hc]
  | wsData b | ibData b | epData b => simp [encode, hws, hib, hep, Cfg.not_isReserved_iff.1 hi]
  | _ => cases hk

theorem decode_escSeqKey (c : Cfg) (x : Byte) : decode c (.escSeq (escSeqKey c x)) = .ok (pairRowOf c x) := by
  simp only [decode, decodeEscSeq, escSeqKey_first, escSeqKey_second, if_true]
  rfl

/-- The byte a pair stands for is of the row's class (R60, R70). -/
theorem decode_of_encode_escSeq {c : Cfg} {i : Instr} {pair : BitVec 16} (hc : c.wf = true) (hi : i.wf c = true)
    (hk : encode c i = .escSeq pair) : decode c (.escSeq pair) = .ok i := by
  rw [← hk]
  cases i with
  | escStart => simp [encode, decode_escSeqKey, pairRowOf, Cfg.classOf_START]
  | escEnd => simp [encode, decode_escSeqKey, pairRowOf, Cfg.classOf_END hc]
  | escEsc => simp [encode, decode_escSeqKey, pairRowOf, Cfg.classOf_ESC hc]
  | escNoncanon x => simp [encode, decode_escSeqKey, pairRowOf, Cfg.not_isReserved_iff.1 hi]
  | _ => cases hk

theorem decode_of_encode_rxCtrl {c : Cfg} {i : Instr} {key : BitVec 2} (hk : encode c i = .rxCtrl key) :
    decode c (.rxCtrl key) = .ok i := by
  rw [← hk]
  cases i with
  | rxIdle => rfl
  | rxReset valid => cases valid <;> rfl
  | _ => cases hk

theorem decode_of_encode_txCmd {c : Cfg} {i : Instr} {k : BitVec 2} {seq : Nat} {payload : List Byte} (hi : i.wf c = true)
    (hk : encode c i = .txCmd k seq payload) : decode c (.txCmd k seq payload) = .ok i := by
  rw [← hk]
  cases i with
  | frameData seq payload | frameAck seq payload | frameNack seq payload | frameRsvd seq payload =>
    have hseq : ¬ 256 ^ c.SW ≤ seq := Nat.not_le.2 (of_decide_eq_true hi)
    simp [encode, decode, decodeTxCmd, hseq]
  | _ => cases hk

theorem decode_of_encode_txCtrl {c : Cfg} {i : Instr} {key : BitVec 4} (hk : encode c i = .txCtrl key) :
    decode c (.txCtrl key) = .ok i := by
  rw [← hk]
  cases i with
  | txEmit | txHold => rfl
  | txIdle ready => cases ready <;> rfl
  | txReset others =>
    have hrst : (1#1 ++ others).getLsbD 3 = true := BitVec.getLsbD_append.trans (by simp)
    simp only [encode, decode, decodeTxCtrl, hrst, if_true, extract_lower]
  | _ => cases hk

/-- A 1 above `n` operand bits is worth `2 ^ n`. -/
theorem toNat_one_append {m n : Nat} (hm : 0 < m) (low : BitVec n) : ((1#m) ++ low).toNat = 2 ^ n + low.toNat := by
  have hone : (1#m).toNat = 1 := BitVec.toNat_ofNat .. ▸ Nat.mod_eq_of_lt (Nat.one_lt_two_pow hm.ne')
  rw [BitVec.toNat_append, hone, ← Nat.shiftLeft_add_eq_or_of_lt low.isLt, Nat.shiftLeft_eq, Nat.one_mul]

/-- The row of a TYPE byte by the byte's value: a reserved row with `n` operand bits covers `2 ^ n` to `2 ^ (n + 1) - 1` (R57, R74). -/
theorem decodeWireType_eq (b : Byte) : decodeWireType b =
    if b.toNat = 0 then .typeData else if b.toNat = 1 then .typeAck else if b.toNat = 2 then .typeNack
    else if b.toNat = 3 then .typeRsvd0 else if b.toNat < 2 ^ 3 then .typeRsvd1 (b.extractLsb' 0 2)
    else if b.toNat < 2 ^ 4 then .typeRsvd2 (b.extractLsb' 0 3) else if b.toNat < 2 ^ 5 then .typeRsvd3 (b.extractLsb' 0 4)
    else if b.toNat < 2 ^ 6 then .typeRsvd4 (b.extractLsb' 0 5) else if b.toNat < 2 ^ 7 then .typeRsvd5 (b.extractLsb' 0 6)
    else .typeRsvd6 (b.extractLsb' 0 7) := by
  simp only [decodeWireType, BitVec.lt_def, ← BitVec.toNat_inj]
  rfl

/-- A reserved row's key lies in the row's range of values, which selects it. -/
theorem decode_of_encode_wireType {c : Cfg} {i : Instr} {b : Byte} (hk : encode c i = .wireType b) :
    decode c (.wireType b) = .ok i := by
  rw [← hk]
  cases i with
  | typeData | typeAck | typeNack | typeRsvd0 => rfl
  | typeRsvd1 low | typeRsvd2 low | typeRsvd3 low | typeRsvd4 low | typeRsvd5 low | typeRsvd6 low =>
    simp (disch := omega) only [encode, decode, decodeWireType_eq, toNat_one_append, extract_lower, if_neg, if_pos]
  | _ => cases hk

/-- Settles O2, by the format of the operation's key. -/
theorem decodeOfEncodeIsIdentity : Obligations.DecodeOfEncodeIsIdentity := by
  intro c i hc hi
  cases hk : encode c i with
  | rxFeed key => exact decode_of_encode_rxFeed hc hi hk
  | rxCtrl key => exact decode_of_encode_rxCtrl hk
  | txCmd k seq payload => exact decode_of_encode_txCmd hi hk
  | txCtrl key => exact decode_of_encode_txCtrl hk
  | wireType b => exact decode_of_encode_wireType hk
  | escSeq pair => exact decode_of_encode_escSeq hc hi hk

end Sys2Proof

/-! PROOF. What a key decodes to is well formed and encodes to that key, format by format (R62, R60, R66, R74). -/

namespace Sys2Proof

open Machine (RxSeq feedRow pairRowOf decode_rxFeedKey)

/-- `i` is well formed and its key is `w`. -/
def Instr.Meets (c : Cfg) (i : Instr) (w : OpWord) : Prop := i.wf c = true ∧ encode c i = w

/-- The row read for a byte is of the byte's class, so its key holds the byte. -/
theorem feedRow_meets (c : Cfg) (q : RxSeq) (b : Byte) : (feedRow c q b).Meets c (.rxFeed (rxFeedKey q.code b)) := by
  have hb := Cfg.eq_of_classOf (c := c) (b := b)
  cases hk : c.classOf b <;> simp only [hk] at hb
  all_goals cases q
  all_goals simp only [feedRow, decodeWaitStart, decodeInBody, decodeEscPending, hk]
  all_goals simp [Instr.Meets, Instr.wf, encode, RxSeq.code, hb]

/-- The row read for a pair is of the class of the byte the pair stands for, so its key holds the pair. -/
theorem pairRowOf_meets (c : Cfg) (x : Byte) : (pairRowOf c x).Meets c (.escSeq (escSeqKey c x)) := by
  have hb := Cfg.eq_of_classOf (c := c) (b := c.unesc x)
  have hx : c.unesc x ^^^ c.MASK = x := c.unesc_unesc x
  unfold pairRowOf
  cases hk : c.classOf (c.unesc x) <;> simp only [hk] at hb ⊢
  case cData => simp [Instr.Meets, Instr.wf, encode, hb]
  all_goals simp [Instr.Meets, Instr.wf, encode, ← hb, hx]

/-- Every byte from `2 ^ n` to `2 ^ (n + 1) - 1` is a 1 above its low `n` bits. -/
theorem one_append_low {m n : Nat} (hm : 0 < m) {b : BitVec (m + n)} (hlo : 2 ^ n ≤ b.toNat) (hhi : b.toNat < 2 ^ n * 2) :
    (1#m) ++ b.extractLsb' 0 n = b := by
  apply BitVec.eq_of_toNat_eq
  rw [toNat_one_append hm, BitVec.extractLsb'_toNat, Nat.shiftRight_zero, Nat.mod_eq_sub_mod hlo, Nat.mod_eq_of_lt (by omega)]
  omega

theorem decodeWireType_meets (c : Cfg) (b : Byte) : (decodeWireType b).Meets c (.wireType b) := by
  rw [decodeWireType_eq]
  split_ifs with h0 h1 h2 h3
  all_goals refine ⟨rfl, congrArg OpWord.wireType ?_⟩
  · exact (BitVec.eq_of_toNat_eq h0).symm
  · exact (BitVec.eq_of_toNat_eq h1).symm
  · exact (BitVec.eq_of_toNat_eq h2).symm
  · exact (BitVec.eq_of_toNat_eq h3).symm
  · exact one_append_low (m := 6) (by decide) (by omega) (by omega)
  · exact one_append_low (m := 5) (by decide) (by omega) (by omega)
  · exact one_append_low (m := 4) (by decide) (by omega) (by omega)
  · exact one_append_low (m := 3) (by decide) (by omega) (by omega)
  · exact one_append_low (m := 2) (by decide) (by omega) (by omega)
  · exact one_append_low (m := 1) (by decide) (by omega) (by omega)

theorem meets_of_decodeRxFeed {c : Cfg} {i : Instr} {key : BitVec 10} (h : decodeRxFeed c key = .ok i) :
    i.Meets c (.rxFeed key) := by
  have hrow (q : RxSeq) (hq : key.extractLsb' 8 2 = q.code) : i.Meets c (.rxFeed key) := by
    obtain ⟨b, rfl⟩ := (extract_upper_eq_iff (m := 2) (n := 8) key q.code).1 hq
    obtain rfl : feedRow c q b = i := Except.ok.inj ((decode_rxFeedKey c q b).symm.trans h)
    exact feedRow_meets c q b
  simp only [decodeRxFeed] at h
  split_ifs at h with h0 h1 h2
  · exact hrow .waitStart h0
  · exact hrow .inBody h1
  · exact hrow .escPending h2

theorem meets_of_decodeRxCtrl {c : Cfg} {i : Instr} {key : BitVec 2} (h : decodeRxCtrl key = .ok i) :
    i.Meets c (.rxCtrl key) := by
  unfold decodeRxCtrl at h
  split_ifs at h with hrst hvalid <;> cases h <;> refine ⟨rfl, congrArg OpWord.rxCtrl ?_⟩
  all_goals revert key; decide

theorem meets_of_decodeTxCmd {c : Cfg} {i : Instr} {k : BitVec 2} {seq : Nat} {payload : List Byte}
    (h : decodeTxCmd c k seq payload = .ok i) : i.Meets c (.txCmd k seq payload) := by
  unfold decodeTxCmd at h
  split_ifs at h with hseq h0 h1 h2
  all_goals cases h; refine ⟨decide_eq_true (Nat.not_le.1 hseq), ?_⟩
  · rw [h0]; rfl
  · rw [h1]; rfl
  · rw [h2]; rfl
  · have h3 : k = 3#2 := by bv_omega
    rw [h3]; rfl

theorem meets_of_decodeTxCtrl {c : Cfg} {i : Instr} {key : BitVec 4} (h : decodeTxCtrl key = .ok i) :
    i.Meets c (.txCtrl key) := by
  unfold decodeTxCtrl at h
  split_ifs at h with hrst htaken hbusy hready <;> cases h <;> refine ⟨rfl, congrArg OpWord.txCtrl ?_⟩
  all_goals revert key; decide

theorem meets_of_decodeEscSeq {c : Cfg} {i : Instr} {pair : BitVec 16} (h : decodeEscSeq c pair = .ok i) :
    i.Meets c (.escSeq pair) := by
  have hfirst : pair.extractLsb' 8 8 = c.ESC := by
    by_contra hne
    simp [decodeEscSeq, hne] at h
  obtain ⟨x, rfl⟩ := (extract_upper_eq_iff (m := 8) (n := 8) pair c.ESC).1 hfirst
  obtain rfl : pairRowOf c x = i := Except.ok.inj ((decode_escSeqKey c x).symm.trans h)
  exact pairRowOf_meets c x

/-- Settles O3, by the format of the key. -/
theorem encodeOfDecodeIsIdentity : Obligations.EncodeOfDecodeIsIdentity := by
  intro c w i _ h
  cases w with
  | rxFeed key => exact meets_of_decodeRxFeed h
  | rxCtrl key => exact meets_of_decodeRxCtrl h
  | txCmd k seq payload => exact meets_of_decodeTxCmd h
  | txCtrl key => exact meets_of_decodeTxCtrl h
  | wireType b => exact Except.ok.inj h ▸ decodeWireType_meets c b
  | escSeq pair => exact meets_of_decodeEscSeq h

end Sys2Proof

/-! PROOF. Under CFG_DEF a decoded key lies in its row, and in the exact row where a lowest-priority row covers it too (R74). -/

namespace Sys2Proof

/-- The number of key bits of a format. -/
def KeyFormat.width (f : KeyFormat) : Nat :=
  match f with
  | .rxFeed => 10
  | .rxCtrl => 2
  | .txCmd => 2
  | .txCtrl => 4
  | .wireType => 8
  | .escSeq => 16

theorem OpWord.key_lt (w : OpWord) : w.key.2 < 2 ^ w.key.1.width := by
  cases w with
  | rxFeed key => exact key.isLt
  | rxCtrl key => exact key.isLt
  | txCmd k _ _ => exact k.isLt
  | txCtrl key => exact key.isLt
  | wireType b => exact b.isLt
  | escSeq pair => exact pair.isLt

/-- A row that covers one key only, and whose format has no operand outside the key. -/
abbrev TableRow.Exact (r : TableRow) : Prop := r.format ≠ .txCmd ∧ r.maskBits = 2 ^ r.format.width - 1

theorem TableRow.matchesWord_iff {r : TableRow} {w : OpWord} :
    r.matchesWord w = true ↔ r.format = w.key.1 ∧ w.key.2 &&& r.maskBits = r.matchBits := by
  simp [TableRow.matchesWord]

/-- Outside `tx_cmd` a word is its key. -/
theorem OpWord.eq_of_key_eq {w w' : OpWord} (h : w.key = w'.key) (hf : w.key.1 ≠ .txCmd) : w = w' := by
  cases w <;> cases w' <;> simp_all [OpWord.key, BitVec.toNat_inj]

theorem TableRow.Exact.word_unique {r : TableRow} {w w' : OpWord} (hr : r.Exact) (h : r.matchesWord w = true)
    (h' : r.matchesWord w' = true) : w = w' := by
  obtain ⟨hf, hmask⟩ := hr
  have hkey {u : OpWord} (hu : r.matchesWord u = true) : u.key = (r.format, r.matchBits) := by
    obtain ⟨hfmt, hbits⟩ := TableRow.matchesWord_iff.1 hu
    rw [hmask, hfmt, Nat.and_two_pow_sub_one_of_lt_two_pow u.key_lt] at hbits
    exact Prod.ext hfmt.symm hbits
  exact OpWord.eq_of_key_eq ((hkey h).trans (hkey h').symm) (by rw [hkey h]; exact hf)

theorem encode_matchesWord (i : Instr) (hi : i.wf cfgDef = true) : i.tableRow.matchesWord (encode cfgDef i) = true :=
  match i with
  | .wsStart => Laws.KeyInRow.wsStart hi
  | .wsEnd => Laws.KeyInRow.wsEnd hi
  | .wsEsc => Laws.KeyInRow.wsEsc hi
  | .wsData b => Laws.KeyInRow.wsData b hi
  | .ibStart => Laws.KeyInRow.ibStart hi
  | .ibEnd => Laws.KeyInRow.ibEnd hi
  | .ibEsc => Laws.KeyInRow.ibEsc hi
  | .ibData b => Laws.KeyInRow.ibData b hi
  | .epStart => Laws.KeyInRow.epStart hi
  | .epEnd => Laws.KeyInRow.epEnd hi
  | .epEsc => Laws.KeyInRow.epEsc hi
  | .epData b => Laws.KeyInRow.epData b hi
  | .rxIdle => Laws.KeyInRow.rxIdle hi
  | .rxReset valid => Laws.KeyInRow.rxReset valid hi
  | .frameData seq payload => Laws.KeyInRow.frameData seq payload hi
  | .frameAck seq payload => Laws.KeyInRow.frameAck seq payload hi
  | .frameNack seq payload => Laws.KeyInRow.frameNack seq payload hi
  | .frameRsvd seq payload => Laws.KeyInRow.frameRsvd seq payload hi
  | .txEmit => Laws.KeyInRow.txEmit hi
  | .txHold => Laws.KeyInRow.txHold hi
  | .txIdle ready => Laws.KeyInRow.txIdle ready hi
  | .txReset others => Laws.KeyInRow.txReset others hi
  | .typeData => Laws.KeyInRow.typeData hi
  | .typeAck => Laws.KeyInRow.typeAck hi
  | .typeNack => Laws.KeyInRow.typeNack hi
  | .typeRsvd0 => Laws.KeyInRow.typeRsvd0 hi
  | .typeRsvd1 low => Laws.KeyInRow.typeRsvd1 low hi
  | .typeRsvd2 low => Laws.KeyInRow.typeRsvd2 low hi
  | .typeRsvd3 low => Laws.KeyInRow.typeRsvd3 low hi
  | .typeRsvd4 low => Laws.KeyInRow.typeRsvd4 low hi
  | .typeRsvd5 low => Laws.KeyInRow.typeRsvd5 low hi
  | .typeRsvd6 low => Laws.KeyInRow.typeRsvd6 low hi
  | .escStart => Laws.KeyInRow.escStart hi
  | .escEnd => Laws.KeyInRow.escEnd hi
  | .escEsc => Laws.KeyInRow.escEsc hi
  | .escNoncanon x => Laws.KeyInRow.escNoncanon x hi

/-- No row whose operand can be ill formed is exact. -/
theorem Instr.wf_of_exact {i : Instr} (h : i.tableRow.Exact) : i.wf cfgDef = true := by
  cases i with
  | wsData | ibData | epData | frameData | frameAck | frameNack | frameRsvd | escNoncanon =>
    simp [TableRow.Exact, Instr.tableRow, KeyFormat.width] at h
  | _ => rfl

/-- The exact row that covers a key is the row the key decodes to. -/
theorem eq_of_exact_matchesWord {i j : Instr} {w : OpWord} (hi : decode cfgDef w = .ok i) (hj : j.tableRow.Exact)
    (h : j.tableRow.matchesWord w = true) : j = i := by
  have hwf := Instr.wf_of_exact hj
  rw [hj.word_unique h (encode_matchesWord j hwf), decodeOfEncodeIsIdentity cfgDef j (by decide) hwf] at hi
  exact Except.ok.inj hi

/-- The 36 rows of the opcode table, one for each constructor. -/
def opcodeTable : List TableRow :=
  [.wsStart, .wsEnd, .wsEsc, .wsData 0, .ibStart, .ibEnd, .ibEsc, .ibData 0, .epStart, .epEnd, .epEsc, .epData 0, .rxIdle,
    .rxReset false, .frameData 0 [], .frameAck 0 [], .frameNack 0 [], .frameRsvd 0 [], .txEmit, .txHold, .txIdle false, .txReset 0,
    .typeData, .typeAck, .typeNack, .typeRsvd0, .typeRsvd1 0, .typeRsvd2 0, .typeRsvd3 0, .typeRsvd4 0, .typeRsvd5 0, .typeRsvd6 0,
    .escStart, .escEnd, .escEsc, .escNoncanon 0].map Instr.tableRow

theorem Instr.tableRow_mem (i : Instr) : i.tableRow ∈ opcodeTable := by
  cases i <;> simp [opcodeTable, Instr.tableRow]

/-- Two rows of one format can cover a common key: their `match` values agree on the bits both masks test. -/
abbrev TableRow.Overlaps (r r' : TableRow) : Prop :=
  r.format = r'.format ∧ r.matchBits &&& r'.maskBits = r'.matchBits &&& r.maskBits

theorem TableRow.overlaps_of_matchesWord {r r' : TableRow} {w : OpWord} (h : r.matchesWord w = true)
    (h' : r'.matchesWord w = true) : r.Overlaps r' := by
  obtain ⟨hfmt, hbits⟩ := TableRow.matchesWord_iff.1 h
  obtain ⟨hfmt', hbits'⟩ := TableRow.matchesWord_iff.1 h'
  exact ⟨hfmt.trans hfmt'.symm, by rw [← hbits, ← hbits', Nat.and_right_comm]⟩

/-- Of two rows of the table that overlap, one that is not exact tests no bit that the other leaves free. -/
theorem opcodeTable_nested : ∀ r ∈ opcodeTable, ∀ r' ∈ opcodeTable, r.Overlaps r' → ¬ r'.Exact →
    r'.maskBits &&& r.maskBits = r'.maskBits := by
  decide +kernel

/-- Settles O4: an exact row that covers the key is the decoded row itself, and any other such row is nested around it. -/
theorem decodedKeyLiesInItsTableRow : Obligations.DecodedKeyLiesInItsTableRow := by
  intro w i h
  obtain ⟨hwf, hw⟩ := encodeOfDecodeIsIdentity cfgDef w i (by decide) h
  have hi : i.tableRow.matchesWord w = true := hw ▸ encode_matchesWord i hwf
  refine ⟨hi, fun j hj => ?_⟩
  by_cases hexact : j.tableRow.Exact
  · rw [eq_of_exact_matchesWord h hexact hj, Nat.and_self]
  · exact opcodeTable_nested _ i.tableRow_mem _ j.tableRow_mem (TableRow.overlaps_of_matchesWord hi hj) hexact

/-- Settles O1: the decoder evaluates on each of the fourteen keys. -/
theorem specKeysDecodeToTheirRows : Obligations.SpecKeysDecodeToTheirRows :=
  ⟨rfl, rfl, rfl, rfl, rfl, rfl, rfl, rfl, rfl, rfl, rfl, rfl, rfl, rfl⟩

end Sys2Proof

/-! PROOF. The TYPE rows of the defined codes (R57, R73, R105; log 11). -/

namespace Sys2Proof.Machine

theorem RxState.length_body (r : RxState) : r.body.length = r.count := Memory.length_bytes r.buf r.count

/-- `PassesChecks` is the length and checksum test that END makes before it reads the TYPE byte (R100, R103). -/
theorem RxState.typeKey_of_passesChecks {c : Cfg} {r : RxState} {b : Byte} (h : r.PassesChecks c) (hb : r.body.head? = some b) :
    r.typeKey c = some b := by
  obtain ⟨hstate, hcount, hcheck⟩ := h
  have hsum : checksumOk c r.body = true := by
    rw [← r.length_body] at hcheck
    simpa [checksumOk, checkField, coveredField, slice] using hcheck
  exact RxState.typeKey_eq_some.2 ⟨hstate, hcount, hsum, by simp [typeField, List.headD_eq_head?_getD, hb]⟩

/-- The fields of R73 as `rxDeliver` slices them are those of `packetOf`. -/
theorem rxDeliver_eq (c : Cfg) (t : PacketType) (r : RxState) :
    rxDeliver c t r = ⟨⟨.waitStart, 0, r.buf⟩, some (.packet (r.packetOf c t))⟩ := by
  have hwidth : r.count - c.CW - (1 + c.SW) = r.count - c.HDR := by simp only [Cfg.HDR]; omega
  simp [rxDeliver, RxState.packetOf, seqField, payloadField, slice, List.drop_take, r.length_body, hwidth]

theorem State.typeRow_deliver {s : State} {b : Byte} (t : PacketType) (h : s.rx.PassesChecks s.cfg) (hb : s.rx.body.head? = some b) :
    s.typeRow b (rxDeliver s.cfg t) = .next (s.afterEvent .waitStart (.packet (s.rx.packetOf s.cfg t))) := by
  rw [State.typeRow, if_pos (RxState.typeKey_of_passesChecks h hb), rxDeliver_eq]
  rfl

/-- Settles O38: each row delivers the packet of its type. -/
theorem definedTypesDeliverThePacket : Obligations.DefinedTypesDeliverThePacket := fun _ h =>
  ⟨State.typeRow_deliver .data h, State.typeRow_deliver .ack h, State.typeRow_deliver .nack h⟩

end Sys2Proof.Machine

/-! PROOF. The escape pairs (R69, R70, R98, R99; log 12). -/

namespace Sys2Proof.Machine

/-- With the ESC taken, a pair's row stores the byte the pair stands for, or reports a full body (R98, R99). -/
theorem State.pairRow_stores {s : State} (x v : Byte) (h : s.rx.state = .escPending) :
    (s.rx.count ≠ s.cfg.BODY_MAX → s.pairRow x v =
      .next { s with rx := ⟨.inBody, s.rx.count + 1, s.rx.buf.write s.rx.count v⟩, ev := none }) ∧
    (s.rx.count = s.cfg.BODY_MAX → s.pairRow x v = .next (s.afterEvent .waitStart .oversizeError)) := by
  rw [State.pairRow, if_pos h]
  constructor
  · intro hcount
    simp [rxAppend_below v hcount, State.commitRx]
  · intro hcount
    rw [rxAppend_full v hcount]
    rfl

/-- The ESC row in IN_BODY keeps `count` and `buf` (R96). -/
theorem exec_ibEsc_inBody {s : State} (hc : s.cfg.wf = true) (h : s.rx.state = .inBody) :
    exec .ibEsc s = .next { s with rx := ⟨.escPending, s.rx.count, s.rx.buf⟩, ev := none } := by
  simp [exec, execIbEsc, State.rxRow, h, Cfg.classOf_ESC hc, State.commitRx, rxEscape]

/-- Settles O40: in ESC_PENDING each row appends the byte its pair stands for, and the ESC before it changes only the sequencer state. -/
theorem escapePairsStandForOneBodyByte : Obligations.EscapePairsStandForOneBodyByte := by
  intro s i v hc hi
  have hpair : ∃ x, ∀ u : State, u.cfg = s.cfg → exec i u = u.pairRow x v := by
    obtain ⟨rfl, rfl⟩ | ⟨rfl, rfl⟩ | ⟨rfl, rfl⟩ | ⟨x, rfl, rfl, -⟩ := hi
    · exact ⟨s.cfg.START ^^^ s.cfg.MASK, fun u hu => by rw [← hu]; rfl⟩
    · exact ⟨s.cfg.END ^^^ s.cfg.MASK, fun u hu => by rw [← hu]; rfl⟩
    · exact ⟨s.cfg.ESC ^^^ s.cfg.MASK, fun u hu => by rw [← hu]; rfl⟩
    · exact ⟨x, fun u hu => by rw [← hu]; rfl⟩
  obtain ⟨x, hrow⟩ := hpair
  have hstores (u : State) (hcfg : u.cfg = s.cfg) (hu : u.rx.state = .escPending) := (hrow u hcfg).symm ▸ State.pairRow_stores x v hu
  constructor
  · exact hstores s rfl
  · intro hs
    exact ⟨_, exec_ibEsc_inBody hc hs, hstores { s with rx := ⟨.escPending, s.rx.count, s.rx.buf⟩, ev := none } rfl rfl⟩

end Sys2Proof.Machine

/-! PROOF. The port codes (R24, R27, R31, R32, R57, R63, R64, R67). -/

namespace Sys2Proof.Machine

theorem Event.code_eq_zero {e : Event} : e.code = 0#2 ↔ ∃ p, e = .packet p := by cases e <;> simp [Event.code]
theorem Event.code_eq_one {e : Event} : e.code = 1#2 ↔ ∃ g, e = .framingError g := by cases e <;> simp [Event.code]
theorem Event.code_eq_two {e : Event} : e.code = 2#2 ↔ e = .checksumError := by cases e <;> simp [Event.code]
theorem Event.code_eq_three {e : Event} : e.code = 3#2 ↔ e = .oversizeError := by cases e <;> simp [Event.code]

theorem Event.cause_of_not_framingError {e : Event} (h : ∀ g, e ≠ .framingError g) : e.cause = 0#2 := by
  cases e with
  | framingError g => exact absurd rfl (h g)
  | packet p => rfl
  | checksumError => rfl
  | oversizeError => rfl

theorem FramingCause.code_injective : Function.Injective FramingCause.code := by
  intro f g; cases f <;> cases g <;> simp [FramingCause.code]

theorem PacketType.tag_injective : Function.Injective PacketType.tag := by
  intro t u; cases t <;> cases u <;> simp [PacketType.tag]

theorem Result.code_injective : Function.Injective Result.code := by
  intro r q; cases r <;> cases q <;> simp [Result.code]

/-- A port that carries the code of a value carries `g`'s code exactly for `g`. -/
theorem some_code_eq_iff {α β : Type} {code : α → β} (hcode : Function.Injective code) {a g : α} :
    some (code a) = some (code g) ↔ a = g :=
  Option.some_inj.trans hcode.eq_iff

theorem evPorts_some_evCode (e : Event) (k : BitVec 2) : (evPorts (some e)).evCode = some k ↔ e.code = k := Option.some_inj

theorem txPorts_txBusy (t : TxState) (res : Option Result) (out : Option Byte) : (txPorts t res out).txBusy = true ↔ 0 < t.q.length :=
  t.busy_iff.trans List.length_pos_iff.symm

/-- Settles O60: each code names one kind, and the valid bits and the derived status are what R24, R27, R31 and R32 say. -/
theorem portCodesFollowTheTables : Obligations.PortCodesFollowTheTables := by
  refine ⟨fun e p f => ⟨rfl, rfl, ?_⟩, fun t res out r b => ⟨rfl, rfl, ?_⟩, fun r => beq_iff_eq⟩
  · simp only [evPorts_some_evCode]
    exact ⟨Event.code_eq_zero, Event.code_eq_one, Event.code_eq_two, Event.code_eq_three,
      fun h => congrArg some (Event.cause_of_not_framingError h),
      some_code_eq_iff FramingCause.code_injective (g := .unterminated), some_code_eq_iff FramingCause.code_injective (g := .truncated),
      some_code_eq_iff FramingCause.code_injective (g := .unknownType), some_code_eq_iff PacketType.tag_injective (g := .data),
      some_code_eq_iff PacketType.tag_injective (g := .ack), some_code_eq_iff PacketType.tag_injective (g := .nack), rfl, rfl, rfl⟩
  · exact ⟨some_code_eq_iff Result.code_injective (g := .accepted), some_code_eq_iff Result.code_injective (g := .payloadTooLarge),
      rfl, rfl, rfl, txPorts_txBusy t res out, rfl⟩

end Sys2Proof.Machine

/-! PROOF. The fields of a packet's body are the packet (R9, R73, R121). -/

namespace Sys2Proof

theorem Cfg.length_check {c : Cfg} (hc : c.wf = true) (l : List Byte) : (c.check l).length = c.CW :=
  (c.wf_iff_meetsR6.1 hc).check.width l

namespace Machine

@[simp] theorem length_beBytes (n v : Nat) : (beBytes n v).length = n := by
  induction n with
  | zero => rfl
  | succ n ih => simp [beBytes, ih]

/-- Reading `n` bytes after `acc` shifts `acc` by `n` bytes and adds the value the bytes stand for. -/
theorem foldl_beBytes (n v acc : Nat) :
    (beBytes n v).foldl (fun acc b => acc * 256 + b.toNat) acc = acc * 256 ^ n + v % 256 ^ n := by
  induction n generalizing acc with
  | zero => simp [beBytes, Nat.mod_one]
  | succ n ih =>
    have hdigits : v % 256 ^ (n + 1) = v % 256 ^ n + 256 ^ n * (v / 256 ^ n % 256) := Nat.mod_mul (a := 256 ^ n)
    rw [beBytes, List.foldl_cons, ih, BitVec.toNat_ofNat, hdigits]
    ring

/-- A value that fits its field is read back (R9). -/
theorem fromBe_beBytes {n v : Nat} (h : v < 256 ^ n) : fromBe (beBytes n v) = v := by
  rw [fromBe, foldl_beBytes, Nat.zero_mul, Nat.zero_add, Nat.mod_eq_of_lt h]

@[simp] theorem PacketType.ofTypeByte_typeByte (t : PacketType) : PacketType.ofTypeByte t.typeByte = some t := by
  cases t <;> rfl

theorem Packet.wf_iff {c : Cfg} {p : Packet} : p.wf c = true ↔ p.seq < 256 ^ c.SW ∧ p.payload.length ≤ c.MAX := by
  simp [Packet.wf]

theorem Packet.length_raw (c : Cfg) (p : Packet) : (p.raw c).length = 1 + c.SW + p.payload.length := by
  simp [Packet.raw]; omega

theorem Packet.length_body {c : Cfg} (hc : c.wf = true) (p : Packet) : (p.body c).length = c.HDR + p.payload.length := by
  rw [Packet.body, List.length_append, Packet.length_raw, Cfg.length_check hc, Cfg.HDR]; omega

theorem RxState.count_of_packet_body {c : Cfg} {p : Packet} {r : RxState} (hc : c.wf = true) (hbody : r.body = p.body c) :
    r.count = c.HDR + p.payload.length := by
  rw [← r.length_body, hbody, p.length_body hc]

/-- The length and checksum checks pass on the body of every packet (R101, R103, R140). -/
theorem RxState.passesChecks_of_packet_body {c : Cfg} {p : Packet} {r : RxState} (hc : c.wf = true) (hs : r.state = .inBody)
    (hbody : r.body = p.body c) : r.PassesChecks c := by
  have hcount := RxState.count_of_packet_body hc hbody
  have hraw : r.count - c.CW = (p.raw c).length := by rw [hcount, p.length_raw, Cfg.HDR]; omega
  refine ⟨hs, by omega, ?_⟩
  rw [hraw, hbody, Packet.body, List.drop_left, List.take_left]

/-- The packet read from a packet's body is that packet (R73, R102). -/
theorem RxState.packetOf_of_packet_body {c : Cfg} {p : Packet} {r : RxState} (hc : c.wf = true) (hp : p.wf c = true)
    (hbody : r.body = p.body c) : r.packetOf c p.type = p := by
  obtain ⟨hseq, -⟩ := Packet.wf_iff.1 hp
  have hcount := RxState.count_of_packet_body hc hbody
  have htail : r.body.drop 1 = beBytes c.SW p.seq ++ (p.payload ++ c.check (p.raw c)) := by
    simp [hbody, Packet.body, Packet.raw]
  have hlen := length_beBytes c.SW p.seq
  rw [RxState.packetOf, ← List.drop_drop, htail, List.take_left' hlen, fromBe_beBytes hseq, List.drop_left' hlen, hcount,
    Nat.add_sub_cancel_left, List.take_left]

/-- END after a packet's body delivers the packet (R95, R100, R105). -/
theorem rxFeed_END_of_packet_body {c : Cfg} {p : Packet} {r : RxState} (hc : c.wf = true) (hp : p.wf c = true)
    (hs : r.state = .inBody) (hbody : r.body = p.body c) : rxFeed c c.END r = ⟨⟨.waitStart, 0, r.buf⟩, some (.packet p)⟩ := by
  have htype : r.body.head? = some p.type.typeByte := by rw [hbody]; rfl
  have hkey := RxState.typeKey_of_passesChecks (RxState.passesChecks_of_packet_body hc hs hbody) htype
  rw [rxFeed_END_of_typeKey hc hkey, rxTypeStage, PacketType.ofTypeByte_typeByte]
  simp only [rxDeliver_eq, RxState.packetOf_of_packet_body hc hp hbody]

end Machine

end Sys2Proof

/-! PROOF. Feeding a frame gives its packet: the escaped body is appended byte by byte (R96 to R99, R106, R110). -/

namespace Sys2Proof.Machine

theorem rxFeedAll_append (c : Cfg) (r : RxState) (l m : List Byte) :
    rxFeedAll c r (l ++ m) =
      ((rxFeedAll c (rxFeedAll c r l).1 m).1, (rxFeedAll c r l).2 ++ (rxFeedAll c (rxFeedAll c r l).1 m).2) := by
  induction l generalizing r with
  | nil => rfl
  | cons b l ih => simp [rxFeedAll, ih]

@[simp] theorem rxFeedAll_singleton (c : Cfg) (r : RxState) (b : Byte) :
    rxFeedAll c r [b] = ((rxFeed c b r).rx, (rxFeed c b r).ev.toList) := by
  simp [rxFeedAll]

/-- The escape of one byte appends the byte: itself when it is not reserved, else ESC and its mask image (R81, R96 to R98). -/
theorem rxFeedAll_escByte {c : Cfg} {r : RxState} (hc : c.wf = true) (hs : r.state = .inBody) (b : Byte) :
    rxFeedAll c r (c.escByte b) = ((rxAppend c b r).rx, (rxAppend c b r).ev.toList) := by
  cases hb : c.isReserved b with
  | false => rw [Cfg.escByte_data hb, rxFeedAll_singleton, rxFeed_inBody_data hs hb]
  | true =>
    have hesc : rxFeed c c.ESC r = rxEscape r := rxFeed_inBody_ESC hc hs
    have hresolve : rxFeed c (b ^^^ c.MASK) (rxEscape r).rx = rxAppend c b r := by
      rw [rxFeed_escPending _ rfl, Cfg.unesc_xor]; rfl
    rw [Cfg.escByte_reserved hb]
    simp only [rxFeedAll, hesc, hresolve, List.append_nil]
    rfl

/-- An escaped list that fits is appended to the body, with no event (R97 to R99). -/
theorem rxFeedAll_escape {c : Cfg} (hc : c.wf = true) (l : List Byte) (r : RxState) (hs : r.state = .inBody)
    (hfit : r.count + l.length ≤ c.BODY_MAX) :
    (rxFeedAll c r (c.escape l)).2 = [] ∧ (rxFeedAll c r (c.escape l)).1.state = .inBody ∧
      (rxFeedAll c r (c.escape l)).1.body = r.body ++ l := by
  induction l generalizing r with
  | nil => simp [rxFeedAll, hs]
  | cons b l ih =>
    have hroom : r.count ≠ c.BODY_MAX := by simp only [List.length_cons] at hfit; omega
    have hbody := rxAppend_body b hroom
    have happ := rxAppend_below b hroom
    obtain ⟨hev, hstate, hrest⟩ := ih (rxAppend c b r).rx (by rw [happ]) (by rw [happ]; simp only [List.length_cons] at hfit ⊢; omega)
    rw [Cfg.escape_cons, rxFeedAll_append, rxFeedAll_escByte hc hs]
    refine ⟨?_, hstate, ?_⟩
    · rw [hev, happ]; rfl
    · rw [hrest, hbody, List.append_assoc, List.singleton_append]

/-- The round trip of R110: START opens the body, the escaped bytes fill it, END delivers it. -/
theorem rxFeedAll_frame {c : Cfg} {p : Packet} {r : RxState} (hc : c.wf = true) (hp : p.wf c = true) (hs : r.state = .waitStart) :
    (rxFeedAll c r (p.frame c)).2 = [.packet p] ∧ (rxFeedAll c r (p.frame c)).1.state = .waitStart ∧
      (rxFeedAll c r (p.frame c)).1.count = 0 := by
  obtain ⟨-, hlen⟩ := Packet.wf_iff.1 hp
  obtain ⟨hev, hstate, hbody⟩ := rxFeedAll_escape hc (p.body c) (rxBegin r).rx rfl
    (by rw [p.length_body hc, Cfg.BODY_MAX]; simp only [rxBegin]; omega)
  have hend := rxFeed_END_of_packet_body hc hp hstate (hbody.trans (List.nil_append _))
  simp only [Packet.frame, rxFeedAll_append, rxFeedAll_singleton, rxFeed_waitStart_START hs, hev, hend]
  exact ⟨rfl, trivial, trivial⟩

end Sys2Proof.Machine

/-! PROOF. Draining the queue, to the wire and in loopback (R72, R128, R131). -/

namespace Sys2Proof.Machine

theorem State.emitByte_cons {s : State} {b : Byte} {q : List Byte} (hq : s.tx.q = b :: q) :
    s.emitByte = s.commitTx ⟨⟨q⟩, none, some b⟩ := by
  rw [State.emitByte, txPop, hq]

theorem State.loopByte_cons {s : State} {b : Byte} {q : List Byte} (hq : s.tx.q = b :: q) :
    s.loopByte = (s.commitTx ⟨⟨q⟩, none, some b⟩).feedByte b := by
  rw [State.loopByte, State.emitByte_cons hq, txPop, hq]

/-- As many emit steps as bytes are queued output the queue in order, and nothing else. -/
theorem emitBytes_queue (q : List Byte) (s : State) (hq : s.tx.q = q) :
    (State.emitBytes q.length s).wire = s.wire ++ q ∧ (State.emitBytes q.length s).results = s.results ∧
      (State.emitBytes q.length s).tx.q = [] ∧ (State.emitBytes q.length s).rx = s.rx := by
  induction q generalizing s with
  | nil => simp [State.emitBytes, hq]
  | cons b q ih => simpa [State.emitBytes, State.emitByte_cons hq] using ih (s.commitTx ⟨⟨q⟩, none, some b⟩) rfl

theorem drain_outputs_queue (s : State) :
    s.drain.wire = s.wire ++ s.tx.q ∧ s.drain.results = s.results ∧ s.drain.tx.q = [] ∧ s.drain.rx = s.rx :=
  emitBytes_queue s.tx.q s rfl

/-- As many loop steps as bytes are queued output the queue and feed it to RX (R72). -/
theorem loopBytes_queue (q : List Byte) (s : State) (hq : s.tx.q = q) :
    (State.loopBytes q.length s).events = s.events ++ (rxFeedAll s.cfg s.rx q).2 ∧
      (State.loopBytes q.length s).rx = (rxFeedAll s.cfg s.rx q).1 ∧
      (State.loopBytes q.length s).wire = s.wire ++ q ∧ (State.loopBytes q.length s).results = s.results ∧
      (State.loopBytes q.length s).tx.q = [] ∧ (State.loopBytes q.length s).inputs = s.inputs := by
  induction q generalizing s with
  | nil => simp [State.loopBytes, rxFeedAll, hq]
  | cons b q ih =>
    simpa [State.loopBytes, rxFeedAll, State.loopByte_cons hq] using ih ((s.commitTx ⟨⟨q⟩, none, some b⟩).feedByte b) rfl

theorem loopback_feeds_queue (s : State) :
    s.loopback.events = s.events ++ (rxFeedAll s.cfg s.rx s.tx.q).2 ∧ s.loopback.rx = (rxFeedAll s.cfg s.rx s.tx.q).1 ∧
      s.loopback.wire = s.wire ++ s.tx.q ∧ s.loopback.results = s.results ∧ s.loopback.tx.q = [] ∧ s.loopback.inputs = s.inputs :=
  loopBytes_queue s.tx.q s rfl

/-- The TX.FRAME line of a packet that is not too long, while TX is idle (R122). -/
theorem State.frameLine_accepted {s : State} {p : Packet} (hq : s.tx.q = []) (hlen : p.payload.length ≤ s.cfg.MAX) :
    s.frameLine p = s.commitTx ⟨⟨p.frame s.cfg⟩, some .accepted, none⟩ := by
  have hidle : s.tx.busy = false := by rw [TxState.busy, hq]; rfl
  rw [State.frameLine_idle p hidle, txAccept, if_neg (Nat.not_lt.2 hlen)]

/-- TX.SEND on a busy TX is one emit step and then the rest of the queue (R71, R127). -/
theorem State.send_busy {s : State} (p : Packet) (hq : s.tx.q ≠ []) : s.send p = s.drain := by
  obtain ⟨b, q, hcons⟩ := List.exists_cons_of_ne_nil hq
  have hline : s.frameLine p = s.emitByte := State.frameLine_busy p (s.tx.busy_iff.2 hq)
  rw [State.send, hline, State.drain, State.drain, hcons, State.emitByte_cons hcons, List.length_cons, State.emitBytes,
    State.emitByte_cons hcons]
  rfl

/-- Settles O59: the accepted frame is the whole queue, LOOP feeds it to RX, which gives the packet back, and TX.DRAIN outputs it; on a
busy TX TX.SEND is TX.DRAIN. -/
theorem sendAndLoopbackCarryThePacket : Obligations.SendAndLoopbackCarryThePacket := by
  refine ⟨fun s p hc hp hq hs => ⟨_, rfl, ?_⟩, fun s p hq hlen => ?_, fun s p hq => ?_⟩
  · obtain ⟨hpacket, hstate, hcount⟩ := rxFeedAll_frame hc hp hs
    obtain ⟨hevents, hrx, hwire, hresults, hqueue, hinputs⟩ :=
      loopback_feeds_queue (s.commitTx ⟨⟨p.frame s.cfg⟩, some .accepted, none⟩)
    rw [State.frameLine_accepted hq (Packet.wf_iff.1 hp).2, hrx, hevents, hwire, hresults, hqueue, hinputs]
    simp [hpacket, hstate, hcount]
  · rw [State.send, State.frameLine_accepted hq hlen]
    simpa using drain_outputs_queue (s.commitTx ⟨⟨p.frame s.cfg⟩, some .accepted, none⟩)
  · rw [State.send_busy p hq]
    exact drain_outputs_queue s

end Sys2Proof.Machine

/-! PROOF. Escaping byte by byte: order and length, the round trip, and where reserved bytes can stand (R82, R84, R85). -/

namespace Sys2Proof

theorem Cfg.escape_append (c : Cfg) (l m : List Byte) : c.escape (l ++ m) = c.escape l ++ c.escape m := List.flatMap_append

theorem Cfg.escape_singleton (c : Cfg) (b : Byte) : c.escape [b] = c.escByte b := List.flatMap_singleton _ _

theorem Cfg.length_escape (c : Cfg) (l : List Byte) : (c.escape l).length = l.length + l.countP c.isReserved := by
  induction l with
  | nil => rfl
  | cons b l ih =>
    rw [Cfg.escape_cons, List.length_append, ih]
    cases hb : c.isReserved b with
    | true => simp [Cfg.escByte_reserved hb, hb]; omega
    | false => simp [Cfg.escByte_data hb, hb]; omega

theorem Cfg.length_escape_le (c : Cfg) (l : List Byte) : (c.escape l).length ≤ 2 * l.length := by
  have hcount : l.countP c.isReserved ≤ l.length := List.countP_le_length
  rw [Cfg.length_escape]; omega

/-- Settles O8: `escape` is a concatenation of `esc` images, each one byte long, or two for a reserved byte. -/
theorem escapeMapsBytesInOrder : Obligations.EscapeMapsBytesInOrder := by
  refine fun c b l m => ⟨c.escape_nil, c.escape_append l m, ?_, c.length_escape l, c.length_escape_le l⟩
  rw [Cfg.escape_singleton]
  simp only [Cfg.escByte, Cfg.isReserved_iff, List.mem_cons, List.not_mem_nil, or_false]

theorem Cfg.ne_ESC_of_data {c : Cfg} {b : Byte} (hb : c.isReserved b = false) : b ≠ c.ESC := by
  rintro rfl
  exact Bool.false_ne_true (hb.symm.trans c.isReserved_ESC)

theorem Cfg.unescape_ESC_cons (c : Cfg) (x : Byte) (rest : List Byte) :
    c.unescape false (c.ESC :: x :: rest) = (c.unesc x :: (c.unescape false rest).1, (c.unescape false rest).2) := by
  rw [Cfg.unescape, if_pos rfl, Cfg.unescape]

theorem Cfg.unescape_cons_of_ne_ESC {c : Cfg} {x : Byte} (hx : x ≠ c.ESC) (rest : List Byte) :
    c.unescape false (x :: rest) = (x :: (c.unescape false rest).1, (c.unescape false rest).2) := by
  rw [Cfg.unescape, if_neg hx]

/-- One `esc` image in front of the input is one byte in front of the result, and the escape is closed after it (R81, R83). -/
theorem Cfg.unescape_escByte_append (c : Cfg) (b : Byte) (rest : List Byte) :
    c.unescape false (c.escByte b ++ rest) = (b :: (c.unescape false rest).1, (c.unescape false rest).2) := by
  cases hb : c.isReserved b with
  | true =>
    rw [Cfg.escByte_reserved hb, List.cons_append, List.cons_append, List.nil_append, Cfg.unescape_ESC_cons, Cfg.unesc_xor]
  | false =>
    rw [Cfg.escByte_data hb, List.cons_append, List.nil_append, Cfg.unescape_cons_of_ne_ESC (Cfg.ne_ESC_of_data hb)]

/-- The round trip of R84. It needs no well-formedness: `esc` tests for ESC, and the mask is undone by itself. -/
theorem Cfg.unescape_escape (c : Cfg) (l : List Byte) : c.unescape false (c.escape l) = (l, false) := by
  induction l with
  | nil => rw [Cfg.escape_nil, Cfg.unescape]
  | cons b l ih => rw [Cfg.escape_cons, Cfg.unescape_escByte_append, ih]

/-- Settles O6, by induction on the list: each `esc` image unescapes to its byte. -/
theorem unescapeOfEscapeIsIdentity : Obligations.UnescapeOfEscapeIsIdentity := fun c l _ => c.unescape_escape l

/-- The only reserved byte an `esc` image holds is ESC: the masked byte behind it is not reserved (R6 condition 3). -/
theorem Cfg.eq_ESC_of_mem_escByte {c : Cfg} (hc : c.wf = true) {b x : Byte} (hx : x ∈ c.escByte b) (hr : c.isReserved x = true) :
    x = c.ESC := by
  cases hb : c.isReserved b with
  | true =>
    rw [Cfg.escByte_reserved hb, List.mem_pair] at hx
    obtain hx | rfl := hx
    · exact hx
    · exact absurd hr (by simp [Cfg.wf_mask_reserved hc hb])
  | false =>
    rw [Cfg.escByte_data hb, List.mem_singleton] at hx
    exact absurd hr (by simp [hx, hb])

theorem Cfg.eq_ESC_of_mem_escape {c : Cfg} (hc : c.wf = true) {l : List Byte} {x : Byte} (hx : x ∈ c.escape l)
    (hr : c.isReserved x = true) : x = c.ESC := by
  obtain ⟨b, -, hb⟩ := List.mem_flatMap.1 hx
  exact Cfg.eq_ESC_of_mem_escByte hc hb hr

/-- An ESC in an escaped list is the first byte of the `esc` image of a reserved byte: ESC is no image by itself (it is reserved), nor the
second byte of one (R6 condition 3). -/
theorem Cfg.masked_after_ESC {c : Cfg} (hc : c.wf = true) {l u v : List Byte} (h : c.escape l = u ++ c.ESC :: v) :
    ∃ (r : Byte) (rest : List Byte), c.isReserved r = true ∧ v = (r ^^^ c.MASK) :: rest := by
  induction l generalizing u with
  | nil => simp at h
  | cons b l ih =>
    rw [Cfg.escape_cons] at h
    cases hb : c.isReserved b with
    | false =>
      rw [Cfg.escByte_data hb] at h
      match u, h with
      | [], h => exact absurd (List.cons.inj h).1 (Cfg.ne_ESC_of_data hb)
      | _ :: _, h => exact ih (List.cons.inj h).2
    | true =>
      rw [Cfg.escByte_reserved hb] at h
      match u, h with
      | [], h => exact ⟨b, c.escape l, hb, (List.cons.inj h).2.symm⟩
      | [_], h =>
        have hmask : b ^^^ c.MASK = c.ESC := (List.cons.inj (List.cons.inj h).2).1
        exact absurd hmask (Cfg.ne_ESC_of_data (Cfg.wf_mask_reserved hc hb))
      | _ :: _ :: _, h => exact ih (List.cons.inj (List.cons.inj h).2).2

/-- Settles O7: every reserved byte of an escaped list is ESC, and every ESC opens the pair of a reserved byte. -/
theorem escapedListHasNoDelimiter : Obligations.EscapedListHasNoDelimiter := by
  refine fun c l hc => ⟨fun h => ?_, fun h => ?_, fun u v h => ?_⟩
  · exact Cfg.wf_START_ne_ESC hc (Cfg.eq_ESC_of_mem_escape hc h (by simp [Cfg.isReserved]))
  · exact Cfg.wf_END_ne_ESC hc (Cfg.eq_ESC_of_mem_escape hc h (by simp [Cfg.isReserved]))
  · obtain ⟨r, rest, hr, hv⟩ := Cfg.masked_after_ESC hc h
    exact ⟨r, rest, hr, hv, Cfg.wf_mask_reserved hc hr⟩

end Sys2Proof

/-! PROOF. What one byte can do to RX, and which event it gives (R90, R100, R107). -/

namespace Sys2Proof.Machine

/-- A rule without an event writes RX, clears the event output and adds nothing to the history. -/
theorem State.commitRx_silent (s : State) (r : RxState) : s.commitRx ⟨r, none⟩ = { s with rx := r, ev := none } := by
  simp [State.commitRx]

/-- `finalize` ends in WAIT_START with an empty body and one event, which is not UNTERMINATED, and a packet only if it is one read from
the body (R100, R105). -/
theorem rxFinalize_event (c : Cfg) (r : RxState) :
    ∃ e, rxFinalize c r = ⟨⟨.waitStart, 0, r.buf⟩, some e⟩ ∧ e ≠ .framingError .unterminated ∧
      ∀ p, e = .packet p → ∃ t, p = r.packetOf c t := by
  unfold rxFinalize rxTypeStage
  split
  · exact ⟨.framingError .truncated, rfl, by simp, by simp⟩
  · split
    · split
      · rename_i t _
        exact ⟨.packet (r.packetOf c t), rxDeliver_eq c t r, by simp, fun p h => ⟨t, (Event.packet.inj h).symm⟩⟩
      · exact ⟨.framingError .unknownType, rfl, by simp, by simp⟩
    · exact ⟨.checksumError, rfl, by simp, by simp⟩

/-- The inversion of a byte step with an event: START in a body, END in a body, or a byte that overflows a full body. -/
theorem rxFeed_event_cases {c : Cfg} {b : Byte} {r : RxState} {e : Event} (h : (rxFeed c b r).ev = some e) :
    (r.state = .inBody ∧ b = c.START ∧ rxFeed c b r = ⟨⟨.inBody, 0, r.buf⟩, some (.framingError .unterminated)⟩) ∨
    (r.state = .inBody ∧ b = c.END ∧ rxFeed c b r = ⟨⟨.waitStart, 0, r.buf⟩, some e⟩ ∧ e ≠ .framingError .unterminated ∧
      ∀ p, e = .packet p → ∃ t, p = r.packetOf c t) ∨
    (r.state ≠ .waitStart ∧ r.count = c.BODY_MAX ∧ rxFeed c b r = ⟨⟨.waitStart, 0, r.buf⟩, some .oversizeError⟩) := by
  have hclass := Cfg.eq_of_classOf (c := c) (b := b)
  have happend (v : Byte) (hs : r.state ≠ .waitStart) (hfeed : rxFeed c b r = rxAppend c v r) :
      r.state ≠ .waitStart ∧ r.count = c.BODY_MAX ∧ rxFeed c b r = ⟨⟨.waitStart, 0, r.buf⟩, some .oversizeError⟩ := by
    by_cases hfull : r.count = c.BODY_MAX
    · exact ⟨hs, hfull, hfeed.trans (rxAppend_full v hfull)⟩
    · rw [hfeed, rxAppend_below v hfull] at h; cases h
  obtain ⟨-, -, hfeed⟩ | ⟨-, -, hfeed⟩ | ⟨hs, hk, hfeed⟩ | ⟨hs, hk, hfeed⟩ | ⟨-, -, hfeed⟩ | ⟨hs, -, hfeed⟩ | ⟨hs, hfeed⟩ :=
    rxFeed_cases c b r
  · rw [hfeed] at h; cases h
  · rw [hfeed] at h; cases h
  · exact .inl ⟨hs, Cfg.classOf_eq_cStart.1 hk, hfeed⟩
  · obtain ⟨e', hfin, hne, hpacket⟩ := rxFinalize_event c r
    rw [hk] at hclass
    rw [hfeed, hfin] at h
    cases h
    exact .inr (.inl ⟨hs, hclass, hfeed.trans hfin, hne, hpacket⟩)
  · rw [hfeed] at h; cases h
  · exact .inr (.inr (happend b (by simp [hs]) hfeed))
  · exact .inr (.inr (happend _ (by simp [hs]) hfeed))

end Sys2Proof.Machine

/-! PROOF. Every step keeps the invariant of the block (R21, R22, R23, R26, R114, R116). -/

namespace Sys2Proof.Machine

/-- Discarding the body keeps the RX invariant, whatever the sequencer enters. -/
theorem RxState.Inv.discard {c : Cfg} {r : RxState} (h : r.Inv c) (q : RxSeq) : RxState.Inv c ⟨q, 0, r.buf⟩ where
  count_le := Nat.zero_le _
  waitStart_empty _ := rfl
  buf_wf := h.buf_wf
  buf_bounded := h.buf_bounded
  body_written _ hi := absurd hi (Nat.not_lt_zero _)

/-- `append` below the bound writes the next cell of the body, which is below `BODY_MAX` (R99). -/
theorem RxState.Inv.store {c : Cfg} {r : RxState} (h : r.Inv c) (v : Byte) (hroom : r.count ≠ c.BODY_MAX) :
    RxState.Inv c ⟨.inBody, r.count + 1, r.buf.write r.count v⟩ where
  count_le := Nat.lt_of_le_of_ne h.count_le hroom
  waitStart_empty hs := by cases hs
  buf_wf := Memory.write_wf _ _ h.buf_wf
  buf_bounded i b hread := by
    by_cases hi : i = r.count
    · exact hi ▸ Nat.lt_of_le_of_ne h.count_le hroom
    · exact h.buf_bounded i b (Memory.read_write_other r.buf v hi ▸ hread)
  body_written i hlt := by
    by_cases hi : i = r.count
    · exact ⟨v, hi ▸ Memory.read_write_same r.buf r.count v⟩
    · rw [Memory.read_write_other r.buf v hi]
      exact h.body_written i (Nat.lt_of_le_of_ne (Nat.le_of_lt_succ hlt) hi)

theorem rxAppend_inv {c : Cfg} {r : RxState} (h : r.Inv c) (v : Byte) : (rxAppend c v r).rx.Inv c := by
  by_cases hfull : r.count = c.BODY_MAX
  · rw [rxAppend_full v hfull]; exact h.discard .waitStart
  · rw [rxAppend_below v hfull]; exact h.store v hfull

theorem rxFeed_inv {c : Cfg} {r : RxState} (h : r.Inv c) (b : Byte) : (rxFeed c b r).rx.Inv c := by
  obtain ⟨-, -, hfeed⟩ | ⟨-, -, hfeed⟩ | ⟨-, -, hfeed⟩ | ⟨-, -, hfeed⟩ | ⟨-, -, hfeed⟩ | ⟨-, -, hfeed⟩ | ⟨-, hfeed⟩ :=
    rxFeed_cases c b r
  all_goals rw [hfeed]
  · exact h.discard .inBody
  · exact h
  · exact h.discard .inBody
  · obtain ⟨e, hfin, -⟩ := rxFinalize_event c r
    rw [hfin]; exact h.discard .waitStart
  · exact { h with waitStart_empty := fun hs => by cases hs }
  · exact rxAppend_inv h b
  · exact rxAppend_inv h _

theorem rxStep_inv {c : Cfg} {r : RxState} (h : r.Inv c) (rst : Bool) (byte : Option Byte) : (rxStep c rst byte r).rx.Inv c :=
  match rst, byte with
  | true, _ => h.discard .waitStart
  | false, none => h
  | false, some b => rxFeed_inv h b

/-- A field of `n` bytes holds a value below `256 ^ n` (R9). -/
theorem fromBe_lt (l : List Byte) : fromBe l < 256 ^ l.length := by
  induction l using List.reverseRecOn with
  | nil => exact Nat.one_pos
  | append_singleton l b ih =>
    have hb : b.toNat < 256 := b.isLt
    simp only [fromBe, List.foldl_append, List.foldl_cons, List.foldl_nil, List.length_append, List.length_singleton, pow_succ] at ih ⊢
    omega

/-- The packet read from a body within its bound is one the format can carry (R58, R116). -/
theorem RxState.packetOf_wf {c : Cfg} {r : RxState} (h : r.count ≤ c.BODY_MAX) (t : PacketType) : (r.packetOf c t).wf c = true := by
  refine Packet.wf_iff.2 ⟨(fromBe_lt _).trans_le (Nat.pow_le_pow_right (by decide) (List.length_take_le _ _)), ?_⟩
  refine (List.length_take_le _ _).trans ?_
  rw [Cfg.BODY_MAX] at h
  omega

theorem rxFeed_event_inv {c : Cfg} {r : RxState} {b : Byte} {e : Event} (h : r.Inv c) (he : (rxFeed c b r).ev = some e) : e.Inv c := by
  rintro p rfl
  obtain ⟨-, -, hfeed⟩ | ⟨-, -, -, -, hpacket⟩ | ⟨-, -, hfeed⟩ := rxFeed_event_cases he
  · rw [hfeed] at he; cases he
  · obtain ⟨t, rfl⟩ := hpacket p rfl
    exact RxState.packetOf_wf h.count_le t
  · rw [hfeed] at he; cases he

theorem rxStep_event_inv {c : Cfg} {r : RxState} {rst : Bool} {byte : Option Byte} {e : Event} (h : r.Inv c)
    (he : (rxStep c rst byte r).ev = some e) : e.Inv c :=
  match rst, byte with
  | true, _ => by cases he
  | false, none => by cases he
  | false, some _ => rxFeed_event_inv h he

/-- `be_N` writes a value modulo `256 ^ N` (R9). -/
theorem beBytes_mod {m n : Nat} (h : n ≤ m) (v : Nat) : beBytes n (v % 256 ^ m) = beBytes n v := by
  induction n with
  | zero => rfl
  | succ n ih =>
    obtain ⟨k, rfl⟩ := Nat.exists_eq_add_of_le h
    have hdigit : v % 256 ^ (n + 1 + k) / 256 ^ n % 256 = v / 256 ^ n % 256 := by
      rw [Nat.add_assoc, pow_add, Nat.mod_mul_right_div_self, Nat.mod_mod_of_dvd _ (dvd_pow_self 256 (by omega))]
    rw [beBytes, beBytes, ih (by omega)]
    congr 1
    exact BitVec.eq_of_toNat_eq (by simpa using hdigit)

/-- The frame of a packet is that of the packet with the sequence id its port carries (R32, R121). -/
theorem Packet.frame_portSeq (c : Cfg) (p : Packet) : ({ p with seq := portSeq c p.seq } : Packet).frame c = p.frame c := by
  simp [Packet.frame, Packet.body, Packet.raw, portSeq, beBytes_mod]

theorem Packet.length_frame_le {c : Cfg} (hc : c.wf = true) {p : Packet} (hlen : p.payload.length ≤ c.MAX) :
    (p.frame c).length ≤ c.FRAME_MAX := by
  have hesc := c.length_escape_le (p.body c)
  rw [p.length_body hc] at hesc
  simp only [Packet.frame, List.length_append, List.length_singleton, Cfg.FRAME_MAX, Cfg.BODY_MAX]
  omega

/-- The queue right after acceptance (R122). -/
theorem TxState.inv_frame {c : Cfg} (hc : c.wf = true) {p : Packet} (hlen : p.payload.length ≤ c.MAX) : TxState.Inv c ⟨p.frame c⟩ where
  queue_le := Packet.length_frame_le hc hlen
  queue_suffix := by
    refine ⟨{ p with seq := portSeq c p.seq }, Packet.wf_iff.2 ⟨Nat.mod_lt _ (Nat.pow_pos (by decide)), hlen⟩, ?_⟩
    rw [Packet.frame_portSeq]

theorem TxState.Inv.of_suffix {c : Cfg} {t u : TxState} (h : t.Inv c) (hu : u.q <:+ t.q) : u.Inv c where
  queue_le := hu.length_le.trans h.queue_le
  queue_suffix := by
    obtain ⟨p, hp, hsuffix⟩ := h.queue_suffix
    exact ⟨p, hp, hu.trans hsuffix⟩

theorem txDrain_suffix (ready : Bool) (t : TxState) : (txDrain ready t).tx.q <:+ t.q :=
  ⟨_, txDrain_conserves ready t⟩

theorem txAccept_inv {c : Cfg} (hc : c.wf = true) (p : Packet) : (txAccept c p).tx.Inv c := by
  obtain ⟨hlen, haccept⟩ | ⟨-, haccept⟩ := txAccept_cases c p
  all_goals rw [haccept]
  · exact TxState.inv_frame hc hlen
  · exact TxState.inv_nil c

theorem txStep_inv {c : Cfg} {t : TxState} {rst : Bool} {cmd : Option Cmd} {ready : Bool} {o : TxOut} (hc : c.wf = true) (h : t.Inv c)
    (ho : txStep c rst cmd ready t = some o) : o.tx.Inv c := by
  unfold txStep at ho
  split_ifs at ho
  · cases ho; exact TxState.inv_nil c
  · cases ho; exact h.of_suffix (txDrain_suffix ready t)
  · split at ho
    · cases ho; exact h
    · split_ifs at ho
      all_goals cases ho; exact txAccept_inv hc _

/-- Settles O15: the RX and the TX part are kept by `rx_step` and `tx_step`, and a new event's packet is read from a bounded body. -/
theorem stepKeepsTheInvariant : Obligations.StepKeepsTheInvariant := by
  rintro s t ⟨hcfg, hrx, htx, hev, hevents⟩ h
  obtain ⟨rest, rst, byte, rfl⟩ | ⟨rest, rst, cmd, ready, o, ho, rfl⟩ := step_next_cases h
  · have hnew (e : Event) (he : (rxStep s.cfg rst byte s.rx).ev = some e) : e.Inv s.cfg := rxStep_event_inv hrx he
    refine { cfg_wf := hcfg, rx := rxStep_inv hrx rst byte, tx := htx, ev := hnew, events := fun e he => ?_ }
    obtain hold | hlast := List.mem_append.1 he
    · exact hevents e hold
    · exact hnew e (Option.mem_toList.1 hlast)
  · exact { cfg_wf := hcfg, rx := hrx, tx := txStep_inv hcfg htx ho, ev := hev, events := hevents }

end Sys2Proof.Machine

/-! PROOF. The body of a frame being received is the unescaped input (R84, R87, R94, R96 to R98, R114). -/

namespace Sys2Proof

theorem Cfg.unescape_nil (c : Cfg) (p : Bool) : c.unescape p [] = ([], p) := by rw [Cfg.unescape]

/-- Unescaping goes on after the bytes `u` with what they leave pending (R84, R87). -/
theorem Cfg.unescape_append (c : Cfg) (p : Bool) (u v : List Byte) :
    c.unescape p (u ++ v) = ((c.unescape p u).1 ++ (c.unescape (c.unescape p u).2 v).1, (c.unescape (c.unescape p u).2 v).2) := by
  induction u generalizing p with
  | nil => simp [Cfg.unescape_nil]
  | cons x u ih =>
    cases p with
    | true => simp [Cfg.unescape, ih]
    | false =>
      by_cases hx : x = c.ESC
      · simp [Cfg.unescape, hx, ih]
      · simp [Cfg.unescape, hx, ih]

theorem Cfg.unescape_cons (c : Cfg) (p : Bool) (x : Byte) (l : List Byte) :
    c.unescape p (x :: l) = ((c.unescape p [x]).1 ++ (c.unescape (c.unescape p [x]).2 l).1, (c.unescape (c.unescape p [x]).2 l).2) :=
  c.unescape_append p [x] l

/-- No byte of `l` is a delimiter outside an escape, where `p` says that an ESC has just been taken (R114). -/
def Cfg.DelimitersEscaped (c : Cfg) (p : Bool) (l : List Byte) : Prop :=
  ∀ u b v, l = u ++ b :: v → (b = c.START ∨ b = c.END) → (c.unescape p u).2 = true

theorem Cfg.delimitersEscaped_cons {c : Cfg} {p : Bool} {x : Byte} {l : List Byte} :
    c.DelimitersEscaped p (x :: l) ↔ ((x = c.START ∨ x = c.END) → p = true) ∧ c.DelimitersEscaped (c.unescape p [x]).2 l := by
  constructor
  · refine fun h => ⟨fun hx => ?_, fun u b v hl hb => ?_⟩
    · simpa [Cfg.unescape_nil] using h [] x l rfl hx
    · simpa [Cfg.unescape_cons c p x u] using h (x :: u) b v (congrArg (x :: ·) hl) hb
  · rintro ⟨hx, h⟩ (_ | ⟨y, u⟩) b v hl hb
    · obtain ⟨rfl, rfl⟩ := List.cons.inj hl
      simpa [Cfg.unescape_nil] using hx hb
    · obtain ⟨rfl, htail⟩ := List.cons.inj hl
      simpa [Cfg.unescape_cons c p x u] using h u b v htail hb

namespace Machine

/-- The sequencer state inside a frame (R24). -/
def RxSeq.inFrame (pending : Bool) : RxSeq := if pending then .escPending else .inBody

/-- One byte inside a frame that is no bare delimiter and fits adds what it unescapes to (R96 to R98). -/
theorem rxFeed_unescape {c : Cfg} {r : RxState} {p : Bool} {x : Byte} (hc : c.wf = true) (hs : r.state = RxSeq.inFrame p)
    (hx : (x = c.START ∨ x = c.END) → p = true) (hfit : r.count + (c.unescape p [x]).1.length ≤ c.BODY_MAX) :
    (rxFeed c x r).ev = none ∧ (rxFeed c x r).rx.body = r.body ++ (c.unescape p [x]).1 ∧
      (rxFeed c x r).rx.state = RxSeq.inFrame (c.unescape p [x]).2 := by
  have hstore (v : Byte) (hroom : r.count + 1 ≤ c.BODY_MAX) (hfeed : rxFeed c x r = rxAppend c v r) :
      (rxFeed c x r).ev = none ∧ (rxFeed c x r).rx.body = r.body ++ [v] ∧ (rxFeed c x r).rx.state = .inBody := by
    have hcount : r.count ≠ c.BODY_MAX := by omega
    have hbody := rxAppend_body v hcount
    rw [hfeed]
    exact ⟨by rw [rxAppend_below v hcount], hbody, by rw [rxAppend_below v hcount]⟩
  cases p with
  | true => exact hstore (c.unesc x) hfit (rxFeed_escPending x hs)
  | false =>
    by_cases hesc : x = c.ESC
    · subst hesc
      simp [rxFeed_inBody_ESC hc hs, rxEscape, Cfg.unescape, RxState.body, RxSeq.inFrame]
    · have hdata : c.isReserved x = false := by
        simp only [Cfg.isReserved, Bool.or_eq_false_iff, beq_eq_false_iff_ne]
        exact ⟨⟨fun h => Bool.false_ne_true (hx (.inl h)), fun h => Bool.false_ne_true (hx (.inr h))⟩, hesc⟩
      have hself : c.unescape false [x] = ([x], false) := Cfg.unescape_cons_of_ne_ESC hesc []
      rw [hself] at hfit ⊢
      exact hstore x hfit (rxFeed_inBody_data hs hdata)

/-- Bytes inside a frame whose delimiters are escaped, and which fit, add the unescaped bytes to the body (R114). -/
theorem rxFeedAll_unescape {c : Cfg} (hc : c.wf = true) (l : List Byte) (p : Bool) (r : RxState) (hs : r.state = RxSeq.inFrame p)
    (hl : c.DelimitersEscaped p l) (hfit : r.count + (c.unescape p l).1.length ≤ c.BODY_MAX) :
    (rxFeedAll c r l).2 = [] ∧ (rxFeedAll c r l).1.body = r.body ++ (c.unescape p l).1 ∧
      (rxFeedAll c r l).1.state = RxSeq.inFrame (c.unescape p l).2 := by
  induction l generalizing p r with
  | nil => simp [rxFeedAll, Cfg.unescape_nil, hs]
  | cons x l ih =>
    obtain ⟨hx, htail⟩ := Cfg.delimitersEscaped_cons.1 hl
    rw [Cfg.unescape_cons, List.length_append] at hfit
    obtain ⟨hev, hbody, hstate⟩ := rxFeed_unescape hc hs hx (by omega)
    have hcount : (rxFeed c x r).rx.count = r.count + (c.unescape p [x]).1.length := by
      rw [← RxState.length_body, hbody, List.length_append, RxState.length_body]
    obtain ⟨hevs, hbodies, hstates⟩ := ih _ _ hstate htail (by omega)
    rw [Cfg.unescape_cons, rxFeedAll]
    exact ⟨by rw [hev, hevs]; rfl, by rw [hbodies, hbody, List.append_assoc], hstates⟩

/-- START outside an escape opens an empty body, after an UNTERMINATED report where a frame was open (R92, R94). -/
theorem rxFeed_START {c : Cfg} {r : RxState} (h : r.state ≠ .escPending) :
    rxFeed c c.START r =
      ⟨⟨.inBody, 0, r.buf⟩, if r.state = .inBody then some (.framingError .unterminated) else none⟩ := by
  cases hs : r.state with
  | waitStart => exact rxFeed_waitStart_START hs
  | inBody => exact rxFeed_inBody_START hs
  | escPending => exact absurd hs h

/-- Settles O49: after START the body is empty, and the bytes behind it add what they unescape to. -/
theorem bodyIsTheUnescapedInput : Obligations.BodyIsTheUnescapedInput := by
  intro c r l hc hs hl hfit
  obtain ⟨hev, hbody, hstate⟩ := rxFeedAll_unescape hc l false ⟨.inBody, 0, r.buf⟩ rfl hl (by simpa using hfit)
  rw [rxFeedAll, rxFeed_START hs]
  refine ⟨?_, hbody, hstate⟩
  rw [hev, List.append_nil]
  split
  · rfl
  · rfl

end Machine

end Sys2Proof

/-! PROOF. Whole frames: round trip, resynchronisation and the overlong frame (R93, R99, R110, R111, R115, R116). -/

namespace Sys2Proof.Machine

/-- Bytes other than START change nothing outside a frame (R93). -/
theorem rxFeedAll_waitStart {c : Cfg} {r : RxState} {l : List Byte} (hs : r.state = .waitStart) (hl : c.START ∉ l) :
    rxFeedAll c r l = (r, []) := by
  induction l with
  | nil => rfl
  | cons b l ih =>
    obtain ⟨hb, hrest⟩ := not_or.1 (List.mem_cons.not.1 hl)
    rw [rxFeedAll, rxFeed_waitStart_other hs (Ne.symm hb), ih hrest]
    rfl

/-- Settles O48, by induction on the list. -/
theorem bytesOutsideFramesAreDiscarded : Obligations.BytesOutsideFramesAreDiscarded := fun _ _ _ => rxFeedAll_waitStart

/-- Settles O50, the round trip proved for the loopback. -/
theorem frameFedBackGivesThePacket : Obligations.FrameFedBackGivesThePacket := fun _ _ _ => rxFeedAll_frame

/-- Outside a frame what follows the START of a frame is discarded (R93, R115). -/
theorem rxFeedAll_frame_rest {c : Cfg} {r : RxState} (hc : c.wf = true) (hs : r.state = .waitStart) (l : List Byte) :
    rxFeedAll c r (c.escape l ++ [c.END]) = (r, []) := by
  obtain ⟨hstart, -, -⟩ := escapedListHasNoDelimiter c l hc
  refine rxFeedAll_waitStart hs fun h => ?_
  obtain hesc | hend := List.mem_append.1 h
  · exact hstart hesc
  · exact Cfg.wf_START_ne_END hc (List.mem_singleton.1 hend)

/-- An escaped list and END leave RX outside a frame with an empty body, if they find it in a frame (R95, R99). -/
theorem rxFeedAll_frame_rest_inBody {c : Cfg} (hc : c.wf = true) (l : List Byte) (r : RxState) (hs : r.state = .inBody) :
    (rxFeedAll c r (c.escape l ++ [c.END])).1.state = .waitStart ∧ (rxFeedAll c r (c.escape l ++ [c.END])).1.count = 0 := by
  induction l generalizing r with
  | nil =>
    obtain ⟨e, hfin, -⟩ := rxFinalize_event c r
    simp [rxFeed_inBody_END hc hs, hfin]
  | cons b l ih =>
    rw [Cfg.escape_cons, List.append_assoc, rxFeedAll_append, rxFeedAll_escByte hc hs]
    by_cases hfull : r.count = c.BODY_MAX
    · simp [rxAppend_full b hfull, rxFeedAll_frame_rest hc]
    · exact ih _ (by rw [rxAppend_below b hfull])

/-- An escaped list that does not fit in the body is one OVERSIZE_ERROR, and what follows the overflow is discarded (R99, R115). -/
theorem rxFeedAll_frame_rest_overlong {c : Cfg} (hc : c.wf = true) (l : List Byte) (r : RxState) (hs : r.state = .inBody)
    (hcount : r.count ≤ c.BODY_MAX) (hlong : c.BODY_MAX < r.count + l.length) :
    (rxFeedAll c r (c.escape l ++ [c.END])).2 = [.oversizeError] := by
  induction l generalizing r with
  | nil => exact absurd hlong (Nat.not_lt.2 hcount)
  | cons b l ih =>
    rw [Cfg.escape_cons, List.append_assoc, rxFeedAll_append, rxFeedAll_escByte hc hs]
    rw [List.length_cons] at hlong
    by_cases hfull : r.count = c.BODY_MAX
    · simp [rxAppend_full b hfull, rxFeedAll_frame_rest hc]
    · rw [rxAppend_below b hfull]
      exact ih _ rfl (Nat.lt_of_le_of_ne hcount hfull) (by simp only; omega)

theorem Packet.frame_eq (c : Cfg) (p : Packet) : p.frame c = c.START :: (c.escape (p.body c) ++ [c.END]) := rfl

/-- Whatever RX is doing, a frame leaves it outside a frame with an empty body: its START opens a body, or is the data byte of an open
escape, and then either the body takes the rest or it overflows and the rest is discarded (R111). -/
theorem rxFeedAll_frame_ends {c : Cfg} (hc : c.wf = true) (p : Packet) (r : RxState) :
    (rxFeedAll c r (p.frame c)).1.state = .waitStart ∧ (rxFeedAll c r (p.frame c)).1.count = 0 := by
  rw [Packet.frame_eq, rxFeedAll]
  by_cases hs : r.state = .escPending
  · rw [rxFeed_escPending _ hs]
    by_cases hfull : r.count = c.BODY_MAX
    · simp [rxAppend_full _ hfull, rxFeedAll_frame_rest hc]
    · exact rxFeedAll_frame_rest_inBody hc _ _ (by rw [rxAppend_below _ hfull])
  · exact rxFeedAll_frame_rest_inBody hc _ _ (by rw [rxFeed_START hs])

/-- In IN_BODY a frame reports the open one as UNTERMINATED and is then received as outside a frame (R94, R111). -/
theorem rxFeedAll_frame_inBody {c : Cfg} {p : Packet} {r : RxState} (hc : c.wf = true) (hp : p.wf c = true) (hs : r.state = .inBody) :
    (rxFeedAll c r (p.frame c)).2 = [.framingError .unterminated, .packet p] := by
  obtain ⟨hpacket, -, -⟩ := rxFeedAll_frame (r := ⟨.waitStart, 0, r.buf⟩) hc hp rfl
  rw [Packet.frame_eq, rxFeedAll, rxFeed_waitStart_START rfl] at hpacket
  rw [Packet.frame_eq, rxFeedAll, rxFeed_inBody_START hs]
  exact congrArg (Event.framingError .unterminated :: ·) hpacket

/-- Settles O51: the bytes before the frame matter only through the state they leave RX in. -/
theorem frameAfterAnyBytesResynchronises : Obligations.FrameAfterAnyBytesResynchronises := fun _ p _ _ hc hp =>
  ⟨fun hs => (rxFeedAll_frame hc hp hs).1, rxFeedAll_frame_inBody hc hp, rxFeedAll_frame_ends hc p _⟩

/-- Settles O53: the body of the packet is longer than `BODY_MAX`. -/
theorem overlongFrameIsOneOversizeError : Obligations.OverlongFrameIsOneOversizeError := by
  intro c p r hc hs hlong
  refine ⟨?_, rxFeedAll_frame_ends hc p r⟩
  have hbody : c.BODY_MAX < 0 + (p.body c).length := by rw [p.length_body hc, Cfg.BODY_MAX]; omega
  rw [Packet.frame_eq, rxFeedAll, rxFeed_waitStart_START hs]
  exact rxFeedAll_frame_rest_overlong hc _ _ rfl (Nat.zero_le _) hbody

end Sys2Proof.Machine

/-! PROOF. One changed byte of a frame is a CHECKSUM_ERROR (R103, R113, R141 property 3). -/

namespace Sys2Proof

/-- Bytes followed by their checksum, with one byte changed, are not bytes followed by their checksum: the change leaves either the
bytes, and so their checksum, or the checksum, which is then that of other bytes (R141 property 3). -/
theorem Cfg.check_ne_of_one_change {c : Cfg} (hc : c.wf = true) {raw u v : List Byte} {x y : Byte} (hxy : x ≠ y)
    (h : raw ++ c.check raw = u ++ x :: v) :
    (u ++ y :: v).drop raw.length ≠ c.check ((u ++ y :: v).take raw.length) := by
  obtain ⟨w, rfl, hcheck⟩ | ⟨w, rfl, hv⟩ := List.append_eq_append_iff.1 h
  · rw [List.append_assoc, List.drop_left, List.take_left, hcheck]
    simpa using Ne.symm hxy
  · cases w with
    | nil =>
      rw [List.append_nil, List.drop_left, List.take_left, ← List.append_nil u, ← List.nil_append (c.check _), ← hv]
      simpa using Ne.symm hxy
    | cons z w =>
      obtain ⟨rfl, rfl⟩ : x = z ∧ v = w ++ c.check (u ++ z :: w) := List.cons.inj hv
      have hdetects : c.check (u ++ x :: w) ≠ c.check (u ++ y :: w) := (c.wf_iff_meetsR6.1 hc).check.detects u w x y hxy
      have hlen : (u ++ x :: w).length = (u ++ y :: w).length := by simp
      have hassoc : u ++ y :: (w ++ c.check (u ++ x :: w)) = (u ++ y :: w) ++ c.check (u ++ x :: w) := by simp
      rw [hlen, hassoc, List.drop_left, List.take_left]
      exact hdetects

namespace Machine

theorem checksumOk_iff {c : Cfg} {r : RxState} :
    checksumOk c r.body = true ↔ r.body.drop (r.count - c.CW) = c.check (r.body.take (r.count - c.CW)) := by
  simp [checksumOk, checkField, coveredField, slice, ← r.length_body]

/-- The checksum check of a completed body (R103). -/
theorem rxFinalize_checksumError {c : Cfg} {r : RxState} (hlen : c.HDR ≤ r.count)
    (hsum : r.body.drop (r.count - c.CW) ≠ c.check (r.body.take (r.count - c.CW))) :
    rxFinalize c r = ⟨⟨.waitStart, 0, r.buf⟩, some .checksumError⟩ := by
  rw [rxFinalize, if_neg (Nat.not_lt.2 hlen), if_neg (checksumOk_iff.not.2 hsum)]
  rfl

/-- A packet's body with one byte changed is a CHECKSUM_ERROR (R103, R113). -/
theorem rxFinalize_of_changed_body {c : Cfg} {p : Packet} {r : RxState} {u v : List Byte} {x y : Byte} (hc : c.wf = true) (hxy : x ≠ y)
    (hpacket : p.body c = u ++ x :: v) (hbody : r.body = u ++ y :: v) :
    rxFinalize c r = ⟨⟨.waitStart, 0, r.buf⟩, some .checksumError⟩ := by
  have hcount : r.count = c.HDR + p.payload.length := by
    rw [← p.length_body hc, ← r.length_body, hpacket, hbody]; simp
  have hraw : r.count - c.CW = (p.raw c).length := by rw [hcount, p.length_raw, Cfg.HDR]; omega
  refine rxFinalize_checksumError (by omega) ?_
  rw [hraw, hbody]
  exact Cfg.check_ne_of_one_change hc hxy hpacket

end Machine

/-- The body byte that `x` stands for, after an ESC or not (R83). -/
def Cfg.bodyByte (c : Cfg) (pending : Bool) (x : Byte) : Byte := if pending then c.unesc x else x

/-- A byte that opens no escape stands for one body byte (R84). -/
theorem Cfg.unescape_singleton {c : Cfg} {p : Bool} {x : Byte} (hx : p = true ∨ x ≠ c.ESC) : c.unescape p [x] = ([c.bodyByte p x], false) := by
  cases p with
  | true => rfl
  | false => exact Cfg.unescape_cons_of_ne_ESC (hx.resolve_left Bool.false_ne_true) []

theorem Cfg.bodyByte_injective (c : Cfg) (p : Bool) : Function.Injective (c.bodyByte p) := by
  cases p with
  | true => exact fun x y h => (BitVec.xor_left_inj _).1 h
  | false => exact Function.injective_id

/-- A byte in the middle of the input that opens no escape stands for one byte in the middle of the body. -/
theorem Cfg.unescape_middle {c : Cfg} {u v : List Byte} {x : Byte} (hx : (c.unescape false u).2 = true ∨ x ≠ c.ESC) :
    c.unescape false (u ++ x :: v) =
      ((c.unescape false u).1 ++ c.bodyByte (c.unescape false u).2 x :: (c.unescape false v).1, (c.unescape false v).2) := by
  rw [Cfg.unescape_append, Cfg.unescape_cons, Cfg.unescape_singleton hx]
  rfl

theorem Cfg.delimitersEscaped_of_none {c : Cfg} {l : List Byte} (hl : ∀ b ∈ l, b ≠ c.START ∧ b ≠ c.END) (p : Bool) :
    c.DelimitersEscaped p l := by
  rintro u b v rfl hb
  obtain ⟨hstart, hend⟩ := hl b (by simp)
  exact absurd hb (not_or.2 ⟨hstart, hend⟩)

theorem Cfg.DelimitersEscaped.append {c : Cfg} {p : Bool} {u v : List Byte} (hu : c.DelimitersEscaped p u)
    (hv : c.DelimitersEscaped (c.unescape p u).2 v) : c.DelimitersEscaped p (u ++ v) := by
  induction u generalizing p with
  | nil => simpa [Cfg.unescape_nil] using hv
  | cons x u ih =>
    obtain ⟨hx, htail⟩ := Cfg.delimitersEscaped_cons.1 hu
    rw [Cfg.unescape_cons] at hv
    exact Cfg.delimitersEscaped_cons.2 ⟨hx, ih htail hv⟩

/-- The changed byte of R113: it is received in ESC_PENDING, or it is a data byte before and after the change. -/
def Cfg.ChangedByte (c : Cfg) (u : List Byte) (x y : Byte) : Prop :=
  (c.unescape false u).2 = true ∨ (c.isReserved x = false ∧ c.isReserved y = false)

/-- Neither value of the changed byte opens an escape, so the change is one byte of the body. -/
theorem Cfg.unescape_changed_byte {c : Cfg} {l u v : List Byte} {x y : Byte} (h : c.escape l = u ++ x :: v) (hxy : x ≠ y)
    (hkind : c.ChangedByte u x y) :
    ∃ a b x' y', x' ≠ y' ∧ l = a ++ x' :: b ∧ c.unescape false (u ++ y :: v) = (a ++ y' :: b, false) := by
  have hx := Cfg.unescape_middle (v := v) (hkind.imp_right fun hdata => Cfg.ne_ESC_of_data hdata.1)
  have hy := Cfg.unescape_middle (v := v) (hkind.imp_right fun hdata => Cfg.ne_ESC_of_data hdata.2)
  rw [← h, c.unescape_escape l] at hx
  obtain ⟨hbody, hopen⟩ := Prod.mk.inj hx
  exact ⟨_, _, _, _, (c.bodyByte_injective _).ne hxy, hbody, hy.trans (Prod.ext rfl hopen.symm)⟩

/-- The changed byte is no bare delimiter, so the changed bytes still are one frame. -/
theorem Cfg.delimitersEscaped_changed_byte {c : Cfg} {l u v : List Byte} {x y : Byte} (hc : c.wf = true)
    (h : c.escape l = u ++ x :: v) (hkind : c.ChangedByte u x y) : c.DelimitersEscaped false (u ++ y :: v) := by
  obtain ⟨hstart, hend, -⟩ := escapedListHasNoDelimiter c l hc
  have hnone (b : Byte) (hb : b ∈ u ++ x :: v) : b ≠ c.START ∧ b ≠ c.END :=
    ⟨fun hk => hstart (hk ▸ h ▸ hb), fun hk => hend (hk ▸ h ▸ hb)⟩
  have hdelim (hy : y = c.START ∨ y = c.END) : (c.unescape false u).2 = true := by
    refine hkind.resolve_right fun hdata => ?_
    obtain rfl | rfl := hy <;> simp [Cfg.isReserved] at hdata
  have hu := Cfg.delimitersEscaped_of_none (fun b hb => hnone b (List.mem_append_left _ hb)) false
  have hv := Cfg.delimitersEscaped_of_none fun b hb => hnone b (List.mem_append_right u (List.mem_cons_of_mem x hb))
  exact hu.append (Cfg.delimitersEscaped_cons.2 ⟨hdelim, hv _⟩)

namespace Machine

/-- Settles O52: the changed bytes fill a body that differs from the packet's in one byte, and END finds its checksum wrong. -/
theorem oneChangedBodyByteIsChecksumError : Obligations.OneChangedBodyByteIsChecksumError := by
  intro c p r u v x y hc hp hs h hxy hkind
  obtain ⟨a, b, x', y', hne, hpacket, hunescape⟩ := Cfg.unescape_changed_byte h hxy hkind
  have hlen : (a ++ y' :: b).length ≤ c.BODY_MAX := by
    have hbody : (a ++ y' :: b).length = (p.body c).length := by simp [hpacket]
    rw [hbody, p.length_body hc, Cfg.BODY_MAX]
    exact Nat.add_le_add_left (Packet.wf_iff.1 hp).2 _
  obtain ⟨hev, hbody, hstate⟩ := rxFeedAll_unescape hc (u ++ y :: v) false (rxBegin r).rx rfl
    (Cfg.delimitersEscaped_changed_byte hc h hkind) (by simpa [hunescape, rxBegin] using hlen)
  rw [hunescape] at hbody hstate
  have hend := (rxFeed_inBody_END hc hstate).trans (rxFinalize_of_changed_body hc hne hpacket hbody)
  rw [List.append_assoc, List.singleton_append, rxFeedAll, rxFeed_waitStart_START hs, rxFeedAll_append, hev, rxFeedAll_singleton, hend]
  exact ⟨rfl, rfl⟩

end Machine

end Sys2Proof

/-! PROOF. The steps of RX samples and their events (R90, R106, R107, R109, R112, R159, R178). -/

namespace Sys2Proof.Machine

/-- Settles O17: the word is read from the sample at the head of the script, or is that of RX.IDLE. -/
theorem stepRunsTheDecodedOperation : Obligations.StepRunsTheDecodedOperation :=
  ⟨fun _ _ _ _ => step_of_sample, fun _ => step_of_no_sample⟩

/-- Settles O18. The sample's key is that of RX.RESET, of RX.IDLE or of the byte in the present state, and each row is its arm of
`rx_step`. -/
theorem rxSampleRunsRxStep : Obligations.RxSampleRunsRxStep := fun _ _ _ _ _ => step_rx

/-- A step of an RX sample commits one `rx_step`. -/
theorem step_rx_next {s t : State} {rst valid : Bool} {b : Byte} {rest : List PortInput} (hc : s.cfg.wf = true)
    (hp : s.inputs = .rx rst valid b :: rest) (h : step s = .next t) :
    t = { s with inputs := rest }.commitRx (rxStep s.cfg rst (if valid then some b else none) s.rx) := by
  rw [step_rx hc hp] at h
  cases h; rfl

/-- Only a byte without reset gives an event (R91, R176). -/
theorem rxStep_event {c : Cfg} {r : RxState} {rst valid : Bool} {b : Byte} {e : Event}
    (h : (rxStep c rst (if valid then some b else none) r).ev = some e) :
    rst = false ∧ valid = true ∧ (rxFeed c b r).ev = some e :=
  match rst, valid with
  | true, _ => by cases h
  | false, false => by cases h
  | false, true => ⟨rfl, rfl, h⟩

/-- Settles O45 from the inversion of the byte step: its event is that of START, of END or of an overflow. -/
theorem atMostOneEventPerByte : Obligations.AtMostOneEventPerByte := by
  intro s t rst valid b rest hc hp h
  obtain rfl := step_rx_next hc hp h
  refine ⟨rfl, fun hev => ?_, ?_⟩
  · obtain ⟨e, he⟩ := Option.ne_none_iff_exists'.1 hev
    obtain ⟨rfl, rfl, hbyte⟩ := rxStep_event he
    refine ⟨rfl, rfl, ?_⟩
    obtain ⟨hs, hb, -⟩ | ⟨hs, hb, -⟩ | ⟨hs, hfull, hfeed⟩ := rxFeed_event_cases hbyte
    · exact .inl ⟨hs, .inl hb⟩
    · exact .inl ⟨hs, .inr hb⟩
    · exact .inr ⟨hs, hfull, congrArg RxOut.ev hfeed⟩
  · rintro rfl rfl hs rfl
    obtain ⟨e, hfin, -⟩ := rxFinalize_event s.cfg s.rx
    have hend : rxFeed s.cfg s.cfg.END s.rx = _ := (rxFeed_inBody_END hc hs).trans hfin
    simp [rxStep, hend]

/-- After an event RX is ready for the next frame: the body is discarded and `buf` left alone, and only UNTERMINATED leaves RX in
IN_BODY (R109, R159). -/
theorem rxFeed_event_ready {c : Cfg} {b : Byte} {r : RxState} {e : Event} (h : (rxFeed c b r).ev = some e) :
    (rxFeed c b r).rx = ⟨if e = .framingError .unterminated then .inBody else .waitStart, 0, r.buf⟩ := by
  obtain ⟨-, -, hfeed⟩ | ⟨-, -, hfeed, hne, -⟩ | ⟨-, -, hfeed⟩ := rxFeed_event_cases h
  · rw [hfeed] at h; cases h
    rw [hfeed]; rfl
  · rw [hfeed, if_neg hne]
  · rw [hfeed] at h; cases h
    rw [hfeed]; rfl

/-- Settles O46: only a byte step gives an event. -/
theorem errorsLeaveRxReady : Obligations.ErrorsLeaveRxReady := by
  intro s t b rest e hc hp h he _
  obtain rfl := step_rx_next hc hp h
  obtain ⟨-, -, hbyte⟩ := rxStep_event he
  have hready : (rxStep s.cfg false (some b) s.rx).rx = _ := rxFeed_event_ready hbyte
  simp [hready]

theorem cfg_wf_of_step {s t : State} (hc : s.cfg.wf = true) (h : step s = .next t) : t.cfg.wf = true :=
  (congrArg Cfg.wf (configurationNeverChanges s t h)).trans hc

/-- Settles O47, by induction on the bytes: the first sample's step is the feed of its byte. -/
theorem feedIsItsSteps : Obligations.FeedIsItsSteps := by
  refine ⟨fun s l rest hc hp => ?_, rxFeedAll_append⟩
  induction l generalizing s with
  | nil => exact ⟨s, rfl, rfl, (List.append_nil _).symm, hp, rfl⟩
  | cons b l ih =>
    have hstep := step_rx_byte (rest := feedSamples l ++ rest) hc hp
    obtain ⟨t, hrun, hrx, hevents, hinputs, htx⟩ := ih _ (cfg_wf_of_step hc hstep) (State.feedByte_inputs _ b)
    refine ⟨t, (runSteps_succ_of_next l.length hstep).trans hrun, hrx, ?_, hinputs, htx⟩
    rw [hevents, State.feedByte_events, List.append_assoc]
    rfl

/-- Settles O54, by induction on the number of idle steps: each is RX.IDLE. -/
theorem idleStepsKeepThePartialFrame : Obligations.IdleStepsKeepThePartialFrame := by
  intro n s rest b hc hp
  induction n generalizing s with
  | zero => exact ⟨s, rfl, rfl, rfl, rfl, hp⟩
  | succ n ih =>
    rw [List.replicate_succ] at hp
    have hstep := step_rx hc hp
    obtain ⟨t, hrun, hrx, hevents, htx, hinputs⟩ := ih _ (cfg_wf_of_step hc hstep) (State.commitRx_inputs _ _)
    refine ⟨t, (runSteps_succ_of_next n hstep).trans hrun, hrx, ?_, htx, hinputs⟩
    rw [hevents, State.commitRx_events]
    exact List.append_nil _

end Sys2Proof.Machine

/-! PROOF. The RX rows in the states their keys name (R91 to R99, R104), and the frame of the rows that store a byte. -/

namespace Sys2Proof

theorem Cfg.classOf_of_not_mem_reserved {c : Cfg} {b : Byte} (h : b ∉ c.reserved) : c.classOf b = .cData :=
  Cfg.classOf_eq_cData.2 (Bool.eq_false_iff.2 ((c.isReserved_iff b).not.2 h))

namespace Machine

section
variable {s : State}

/-- Where the state and the byte are those of its key, an `rx_feed` row runs its rule. -/
theorem State.rxRow_of_key {q : RxSeq} {k : ByteClass} {b : Byte} {rule : RxState → RxOut} (hq : s.rx.state = q)
    (hk : s.cfg.classOf b = k) : s.rxRow q k b rule = .next (s.commitRx (rule s.rx)) := if_pos ⟨hq, hk⟩

theorem State.pairRow_escPending (x v : Byte) (h : s.rx.state = .escPending) :
    s.pairRow x v = .next (s.commitRx (rxAppend s.cfg v s.rx)) := if_pos h

theorem State.typeRow_unknown {b : Byte} (h : s.rx.PassesChecks s.cfg) (hb : s.rx.body.head? = some b) :
    s.typeRow b rxUnknownType = .next (s.afterEvent .waitStart (.framingError .unknownType)) :=
  if_pos (RxState.typeKey_of_passesChecks h hb)

/-- What a row that is `append` of `v` answers, below the bound and at it (R99). -/
theorem State.append_outcome {v : Byte} {o : Host.Outcome State Fault Refusal} (h : o = .next (s.commitRx (rxAppend s.cfg v s.rx))) :
    (s.rx.count ≠ s.cfg.BODY_MAX →
      o = .next { s with rx := ⟨.inBody, s.rx.count + 1, s.rx.buf.write s.rx.count v⟩, ev := none }) ∧
    (s.rx.count = s.cfg.BODY_MAX → o = .next (s.afterEvent .waitStart .oversizeError)) := by
  subst h
  exact ⟨fun hroom => by rw [rxAppend_below v hroom, State.commitRx_silent], fun hfull => by rw [rxAppend_full v hfull]; rfl⟩

end

/-- Settles O22: the row runs its rule, which has no event. -/
theorem startInWaitStartBeginsFrame : Obligations.StartInWaitStartBeginsFrame := fun s h =>
  (State.rxRow_of_key h s.cfg.classOf_START).trans (congrArg _ (s.commitRx_silent _))

/-- Settles O23: the three rows are one rule. -/
theorem otherBytesInWaitStartAreDiscarded : Obligations.OtherBytesInWaitStartAreDiscarded := by
  intro s b hc h hb
  have hdiscard {k : ByteClass} {x : Byte} (hk : s.cfg.classOf x = k) :
      s.rxRow .waitStart k x rxDiscard = .next { s with ev := none } :=
    (State.rxRow_of_key h hk).trans (congrArg _ (s.commitRx_silent s.rx))
  exact ⟨hdiscard (Cfg.classOf_END hc), hdiscard (Cfg.classOf_ESC hc), hdiscard (Cfg.classOf_of_not_mem_reserved hb)⟩

/-- Settles O24: the rule is error entry with UNTERMINATED, whatever the count. -/
theorem startInBodyReportsUnterminated : Obligations.StartInBodyReportsUnterminated := fun s h =>
  State.rxRow_of_key h s.cfg.classOf_START

/-- Settles O26, which the ESC before a pair needed already. -/
theorem escInBodyEntersEscPending : Obligations.EscInBodyEntersEscPending := fun _ => exec_ibEsc_inBody

/-- Settles O30: the row keeps RX and has no event. -/
theorem rxIdleChangesNothing : Obligations.RxIdleChangesNothing := fun s => congrArg _ (s.commitRx_silent s.rx)

/-- The length check of a completed body (R101). -/
theorem rxFinalize_truncated {c : Cfg} {r : RxState} (h : r.count < c.HDR) :
    rxFinalize c r = ⟨⟨.waitStart, 0, r.buf⟩, some (.framingError .truncated)⟩ := if_pos h

/-- A body that passes the length and checksum checks reaches the type check (R100). -/
theorem rxFinalize_of_passesChecks {c : Cfg} {r : RxState} {b : Byte} (hc : c.wf = true) (h : r.PassesChecks c)
    (hb : r.body.head? = some b) : rxFinalize c r = rxTypeStage c b r :=
  (rxFeed_inBody_END hc h.1).symm.trans (rxFeed_END_of_typeKey hc (RxState.typeKey_of_passesChecks h hb))

/-- Settles O25: the stages of `finalize`, one by one. -/
theorem endInBodyCompletesTheFrame : Obligations.EndInBodyCompletesTheFrame := by
  intro s hc h
  have hrow : exec .ibEnd s = .next (s.commitRx (rxFinalize s.cfg s.rx)) := State.rxRow_of_key h (Cfg.classOf_END hc)
  have hend {e : Event} (hfin : rxFinalize s.cfg s.rx = ⟨⟨.waitStart, 0, s.rx.buf⟩, some e⟩) :
      exec .ibEnd s = .next (s.afterEvent .waitStart e) := by
    rw [hrow, hfin]; rfl
  have hdeliver (t : PacketType) (hpass : s.rx.PassesChecks s.cfg) (hb : s.rx.body.head? = some t.typeByte) :
      exec .ibEnd s = .next (s.afterEvent .waitStart (.packet (s.rx.packetOf s.cfg t))) := by
    refine hend ((rxFinalize_of_passesChecks hc hpass hb).trans ?_)
    rw [rxTypeStage, PacketType.ofTypeByte_typeByte]
    exact rxDeliver_eq s.cfg t s.rx
  refine ⟨fun hlen => hend (rxFinalize_truncated hlen), fun hlen hsum => hend (rxFinalize_checksumError hlen hsum),
    fun hpass b hb hreserved => hend ?_, hdeliver .data, hdeliver .ack, hdeliver .nack⟩
  exact (rxFinalize_of_passesChecks hc hpass hb).trans (rxTypeStage_reserved hreserved s.rx)

/-- Settles O27: the row is `append` of its byte. -/
theorem dataInBodyIsAppended : Obligations.DataInBodyIsAppended := fun _ _ h hb =>
  State.append_outcome (State.rxRow_of_key h (Cfg.classOf_of_not_mem_reserved hb))

/-- The four ESC_PENDING rows append the unescaped byte, whatever its class (R98). -/
theorem exec_escPending_row {s : State} {i : Instr} {x : Byte} (hc : s.cfg.wf = true) (h : s.rx.state = .escPending)
    (hi : (i = .epStart ∧ x = s.cfg.START) ∨ (i = .epEnd ∧ x = s.cfg.END) ∨ (i = .epEsc ∧ x = s.cfg.ESC) ∨
      (i = .epData x ∧ x ∉ s.cfg.reserved)) :
    exec i s = .next (s.commitRx (rxAppend s.cfg (s.cfg.unesc x) s.rx)) := by
  obtain ⟨rfl, rfl⟩ | ⟨rfl, rfl⟩ | ⟨rfl, rfl⟩ | ⟨rfl, hx⟩ := hi
  · exact State.rxRow_of_key h s.cfg.classOf_START
  · exact State.rxRow_of_key h (Cfg.classOf_END hc)
  · exact State.rxRow_of_key h (Cfg.classOf_ESC hc)
  · exact State.rxRow_of_key h (Cfg.classOf_of_not_mem_reserved hx)

/-- Settles O28: the four rows are `append` of the unescaped byte. -/
theorem anyByteInEscPendingIsUnescaped : Obligations.AnyByteInEscPendingIsUnescaped := fun _ hc h _ _ hi =>
  State.append_outcome (exec_escPending_row hc h hi)

/-- What `append` does to `buf`: cell `count` is written, or none when the body is full (R99). -/
theorem rxAppend_buf (c : Cfg) (v : Byte) (r : RxState) :
    (r.count ≠ c.BODY_MAX → (rxAppend c v r).rx.buf.read r.count = some v) ∧
    (r.count = c.BODY_MAX → (rxAppend c v r).rx.buf = r.buf) ∧
    (∀ a, a ≠ r.count → (rxAppend c v r).rx.buf.read a = r.buf.read a) := by
  by_cases hfull : r.count = c.BODY_MAX
  · rw [rxAppend_full v hfull]
    exact ⟨fun hroom => absurd hfull hroom, fun _ => rfl, fun _ _ => rfl⟩
  · rw [rxAppend_below v hfull]
    exact ⟨fun _ => Memory.read_write_same _ _ _, fun h => absurd h hfull, fun a ha => Memory.read_write_other _ _ ha⟩

/-- Settles O29: each of the nine rows is `append` of its byte. -/
theorem storingRowsChangeOneCell : Obligations.StoringRowsChangeOneCell := by
  intro s t i v hc hi h
  have hrow : exec i s = .next (s.commitRx (rxAppend s.cfg v s.rx)) := by
    obtain ⟨hs, rfl, hv⟩ | ⟨hs, hpair⟩ | ⟨hs, ⟨rfl, rfl⟩ | ⟨rfl, rfl⟩ | ⟨rfl, rfl⟩ | ⟨rfl, hx⟩⟩ := hi
    · exact State.rxRow_of_key hs (Cfg.classOf_of_not_mem_reserved hv)
    · obtain ⟨rfl, rfl⟩ | ⟨rfl, rfl⟩ | ⟨rfl, rfl⟩ | ⟨rfl, -⟩ := hpair
      · exact State.pairRow_escPending _ _ hs
      · exact State.pairRow_escPending _ _ hs
      · exact State.pairRow_escPending _ _ hs
      · exact (State.pairRow_escPending _ _ hs).trans (by rw [Cfg.unesc_xor])
    · exact exec_escPending_row hc hs (.inl ⟨rfl, rfl⟩)
    · exact exec_escPending_row hc hs (.inr (.inl ⟨rfl, rfl⟩))
    · exact exec_escPending_row hc hs (.inr (.inr (.inl ⟨rfl, rfl⟩)))
    · exact (exec_escPending_row hc hs (.inr (.inr (.inr ⟨rfl, hx⟩)))).trans (by rw [Cfg.unesc_xor])
  rw [hrow] at h
  cases h
  obtain ⟨hcell, hfull, hother⟩ := rxAppend_buf s.cfg v s.rx
  exact ⟨hcell, hfull, hother, rfl, rfl, rfl, rfl, rfl, rfl, rfl⟩

/-- Settles O39: the seven rows are one rule for their TYPE bytes. -/
theorem reservedTypesAreUnknown : Obligations.ReservedTypesAreUnknown := by
  intro s b hpass hb i hi
  obtain ⟨rfl, rfl⟩ | ⟨low, rfl, rfl⟩ | ⟨low, rfl, rfl⟩ | ⟨low, rfl, rfl⟩ | ⟨low, rfl, rfl⟩ | ⟨low, rfl, rfl⟩ | ⟨low, rfl, rfl⟩ := hi
  all_goals exact State.typeRow_unknown hpass hb

end Machine

end Sys2Proof

/-! PROOF. Every row, in every state, is the port step of the inputs its key stands for (R90, R120; log 9 to log 12). -/

namespace Sys2Proof.Machine

/-- An `rx_feed` key that is a row is the row read for its byte in some sequencer state. -/
theorem exists_feedRow_of_decode {c : Cfg} {code : BitVec 2} {b : Byte} {i : Instr}
    (h : decode c (.rxFeed (rxFeedKey code b)) = .ok i) : ∃ q, feedRow c q b = i := by
  simp only [decode, decodeRxFeed, rxFeedKey_code, rxFeedKey_byte] at h
  split_ifs at h
  · exact ⟨.waitStart, Except.ok.inj h⟩
  · exact ⟨.inBody, Except.ok.inj h⟩
  · exact ⟨.escPending, Except.ok.inj h⟩

/-- The `rx_ctrl` rows are the RX step with their reset bit and no byte (R91, R176). -/
theorem exec_of_encode_rxCtrl {s : State} {i : Instr} {key : BitVec 2} (hk : encode s.cfg i = .rxCtrl key) :
    exec i s = .next (s.commitRx (rxStep s.cfg (key.getLsbD 1) none s.rx)) := by
  cases i with
  | rxIdle => cases hk; rfl
  | rxReset valid => cases hk; cases valid <;> rfl
  | _ => cases hk

/-- A TX step without a command is never refused (R120). -/
theorem txStep_none (c : Cfg) (rst ready : Bool) (t : TxState) :
    txStep c rst none ready t = some (if rst then txClear t else if t.busy then txDrain ready t else txKeep t) := by
  unfold txStep
  split_ifs
  all_goals rfl

theorem txPop_idle {t : TxState} (h : t.busy = false) : txPop t = txKeep t := by
  obtain ⟨_ | ⟨b, q⟩⟩ := t
  · rfl
  · cases h

/-- The `tx_ctrl` rows are the TX step with their reset and ready bits and no command (R128 to R130, R177). -/
theorem exec_of_encode_txCtrl {s : State} {i : Instr} {key : BitVec 4} (hk : encode s.cfg i = .txCtrl key) :
    exec i s = s.txOutcome (txStep s.cfg (key.getLsbD 3) none (key.getLsbD 0) s.tx) := by
  rw [txStep_none]
  cases i with
  | txEmit =>
    cases hk
    cases hb : s.tx.busy with
    | true => rfl
    | false => simp only [exec, execTxEmit, txPop_idle hb]; rfl
  | txHold => cases hk; cases s.tx.busy <;> rfl
  | txIdle ready => cases hk; cases hb : s.tx.busy <;> cases ready <;> simp only [exec, execTxIdle, hb] <;> rfl
  | txReset others =>
    cases hk
    have hrst : (1#1 ++ others : BitVec 4).getLsbD 3 = true := by revert others; decide
    rw [hrst]; rfl
  | _ => cases hk

/-- The row of a frame command is the TX step with the command and `out_ready = 1`, taken or not (R71, R120, R127; log 10). -/
theorem exec_cmdRow (s : State) (k : Cmd) :
    exec (cmdRow s.cfg k) s = s.txOutcome (txStep s.cfg false (some (k.onPort s.cfg)) true s.tx) := by
  cases hb : s.tx.busy with
  | false => rw [txStep_idle_cmd k true hb, exec_cmdRow_idle k hb]
  | true =>
    have hstep : txStep s.cfg false (some (k.onPort s.cfg)) true s.tx = some (txPop s.tx) := by simp only [txStep, hb]; rfl
    rw [hstep]
    unfold cmdRow
    split_ifs
    · exact congrArg _ (State.frameLine_busy _ hb)
    · exact congrArg _ (State.frameLine_busy _ hb)
    · exact congrArg _ (State.frameLine_busy _ hb)
    · exact if_pos hb

/-- A `tx_cmd` row whose sequence id fits is the row of the command its key and operands hold. -/
theorem cmdRow_of_encode {c : Cfg} {i : Instr} {k : Cmd} (hi : i.wf c = true) (hk : encode c i = .txCmd k.type k.seq k.payload) :
    cmdRow c k = i ∧ k.onPort c = k := by
  have hdecode : decodeTxCmd c k.type k.seq k.payload = .ok i := decode_of_encode_txCmd hi hk
  have hfit : ¬ 256 ^ c.SW ≤ k.seq := fun hwide => by rw [decodeTxCmd, if_pos hwide] at hdecode; cases hdecode
  have hport : portSeq c k.seq = k.seq := Nat.mod_eq_of_lt (Nat.not_le.1 hfit)
  rw [decodeTxCmd, if_neg hfit] at hdecode
  simp only [← apply_ite Except.ok] at hdecode
  exact ⟨by rw [cmdRow, hport]; exact Except.ok.inj hdecode, by rw [Cmd.onPort, hport]⟩

/-- Settles O41, by the format of the key. -/
theorem everyRowIsItsPortStep : Obligations.EveryRowIsItsPortStep := by
  rintro _ i s rfl hc hi
  refine ⟨fun code b hk => ?_, fun key => exec_of_encode_rxCtrl, fun b hk => ?_, fun x hk => ?_, fun ty seq payload hk => ?_,
    fun key hk => ?_⟩
  · obtain ⟨q, rfl⟩ := exists_feedRow_of_decode (decode_of_encode_rxFeed hc hi hk)
    exact exec_feedRow s q b
  · obtain rfl : decodeWireType b = i := Except.ok.inj (decode_of_encode_wireType hk)
    exact exec_decodeWireType b hc
  · obtain rfl : pairRowOf s.cfg x = i :=
      Except.ok.inj ((decode_escSeqKey s.cfg x).symm.trans (decode_of_encode_escSeq hc hi hk))
    exact exec_pairRowOf s x
  · obtain ⟨rfl, hport⟩ := cmdRow_of_encode (k := ⟨ty, seq, payload⟩) hi hk
    rw [exec_cmdRow, hport]
    cases txStep s.cfg false (some ⟨ty, seq, payload⟩) true s.tx <;> rfl
  · exact ⟨_, txStep_none _ _ _ _, (exec_of_encode_txCtrl hk).trans (congrArg s.txOutcome (txStep_none _ _ _ _))⟩

end Sys2Proof.Machine

/-! PROOF. The bytes output and queued are the accepted frames (R48, R120, R122, R131). -/

namespace Sys2Proof.Machine

theorem txStep_busy {c : Cfg} {t : TxState} (cmd : Option Cmd) (ready : Bool) (h : t.busy = true) :
    txStep c false cmd ready t = some (txDrain ready t) := by
  simp only [txStep, h]; rfl

theorem TxState.busy_of_cons {t : TxState} {b : Byte} {q : List Byte} (h : t.q = b :: q) : t.busy = true :=
  t.busy_iff.2 (by rw [h]; exact List.cons_ne_nil b q)

theorem TxState.idle_iff (t : TxState) : t.busy = false ↔ t.q = [] := by
  rw [← Bool.not_eq_true, t.busy_iff, not_not]

theorem State.acceptedNext_no_sample {s : State} (hp : s.inputs = []) : s.acceptedNext = none := by
  rw [State.acceptedNext, hp]

theorem State.acceptedNext_forRx {s : State} {p : PortInput} {rest : List PortInput} (hp : s.inputs = p :: rest)
    (hk : p.forRx = true) : s.acceptedNext = none := by
  cases p with
  | tx rst cmd ready => cases hk
  | rx rst valid b => rw [State.acceptedNext, hp]
  | pairEnd x => rw [State.acceptedNext, hp]
  | frameEnd => rw [State.acceptedNext, hp]

/-- The packet accepted in a TX step without reset (R122): the one the command asks for, while TX is idle and where it is not too long. -/
theorem State.acceptedNext_tx {s : State} {cmd : Option Cmd} {ready : Bool} {rest : List PortInput}
    (hp : s.inputs = .tx false cmd ready :: rest) :
    s.acceptedNext = if s.tx.busy then none
      else (cmd.bind (Cmd.packet? s.cfg)).filter fun p => decide (p.payload.length ≤ s.cfg.MAX) := by
  rw [State.acceptedNext, hp]
  cases cmd <;> simp

/-- Acceptance outputs no byte and queues the frame of a packet that is not too long (R122). -/
theorem txAccept_queues (c : Cfg) (p : Packet) : (txAccept c p).out.toList ++ (txAccept c p).tx.q =
    ((some p).filter fun p => decide (p.payload.length ≤ c.MAX)).toList.flatMap (Packet.frame c) := by
  obtain ⟨hlen, haccept⟩ | ⟨hlen, haccept⟩ := txAccept_cases c p
  · simp [haccept, Option.filter_some, hlen]
  · simp [haccept, Option.filter_some, Nat.not_le.2 hlen]

/-- A TX step without reset moves bytes from the queue to the wire, or queues the frame of the packet it accepts (R120, R131). -/
theorem txStep_carries_acceptedNext {s : State} {cmd : Option Cmd} {ready : Bool} {rest : List PortInput} {o : TxOut}
    (hp : s.inputs = .tx false cmd ready :: rest)
    (ho : txStep s.cfg false (cmd.map (Cmd.onPort s.cfg)) ready s.tx = some o) :
    o.out.toList ++ o.tx.q = s.tx.q ++ s.acceptedNext.toList.flatMap (Packet.frame s.cfg) := by
  rw [State.acceptedNext_tx hp]
  cases hb : s.tx.busy with
  | true =>
    rw [txStep_busy _ ready hb] at ho
    cases ho
    simpa using txDrain_conserves ready s.tx
  | false =>
    cases cmd with
    | none =>
      rw [Option.map_none, txStep_none, hb] at ho
      cases ho
      simp [txKeep]
    | some k =>
      rw [Option.map_some, txStep_idle_cmd k ready hb] at ho
      obtain ⟨p, hpacket, rfl⟩ := Option.map_eq_some_iff.1 ho
      simpa [s.tx.idle_iff.1 hb, hpacket] using txAccept_queues s.cfg p

/-- Output and queue together grow by the frame accepted in the step, unless TX is reset (R131). -/
theorem step_carries_acceptedNext {s t : State} (hrst : ∀ p ∈ s.inputs.head?, p.resetsTx = false) (h : step s = .next t) :
    t.wire ++ t.tx.q = s.wire ++ s.tx.q ++ s.acceptedNext.toList.flatMap (Packet.frame s.cfg) ∧ t.inputs = s.inputs.tail := by
  have hc := cfg_wf_of_step_next h
  cases hp : s.inputs with
  | nil =>
    rw [step_of_no_sample hc hp] at h
    cases h
    simp [State.acceptedNext_no_sample hp, hp]
  | cons p rest =>
    cases hk : p.forRx with
    | true =>
      obtain ⟨rst, byte, hstep⟩ := step_forRx hk s.cfg
      rw [hstep s rest rfl hc hp] at h
      cases h
      simp [State.acceptedNext_forRx hp hk]
    | false =>
      obtain ⟨rst, cmd, ready, rfl⟩ := PortInput.eq_tx_of_not_forRx hk
      obtain rfl : rst = false := hrst (.tx rst cmd ready) (by rw [hp]; rfl)
      obtain ⟨o, ho, rfl⟩ := step_tx_next hc hp h
      refine ⟨?_, rfl⟩
      rw [List.append_assoc s.wire, ← txStep_carries_acceptedNext hp ho]
      simp

theorem State.acceptedIn_succ_of_next {s t : State} (n : Nat) (h : step s = .next t) :
    State.acceptedIn (n + 1) s = s.acceptedNext.toList ++ State.acceptedIn n t := by
  rw [State.acceptedIn, h]

/-- A run that goes on for `n + 1` steps is a step and a run of `n`. -/
theorem runSteps_succ_next {n : Nat} {s t : State} (h : runSteps (n + 1) s = .next t) :
    ∃ u, step s = .next u ∧ runSteps n u = .next t := by
  cases hs : step s with
  | next u => exact ⟨u, rfl, (runSteps_succ_of_next n hs).symm.trans h⟩
  | fault f => cases f
  | refused r => rw [runSteps_succ_of_refused n hs] at h; cases h

/-- Settles O57, by induction on the number of steps: each adds the frame it accepts to the output and the queue taken together. -/
theorem wireCarriesTheAcceptedFrames : Obligations.WireCarriesTheAcceptedFrames := by
  intro n s t hc hrst hrun
  induction n generalizing s with
  | zero => cases hrun; exact (List.append_nil _).symm
  | succ n ih =>
    obtain ⟨u, hstep, hrest⟩ := runSteps_succ_next hrun
    have hfirst (p : PortInput) (hp : p ∈ s.inputs.head?) : p.resetsTx = false :=
      hrst p (List.mem_of_mem_head? (by rwa [List.head?_take, if_neg n.succ_ne_zero]))
    obtain ⟨hcarry, hinputs⟩ := step_carries_acceptedNext hfirst hstep
    have hlater (p : PortInput) (hp : p ∈ u.inputs.take n) : p.resetsTx = false :=
      hrst p (List.mem_of_mem_tail (by rwa [List.tail_take_eq_take_tail, Nat.add_sub_cancel, ← hinputs]))
    rw [ih u (cfg_wf_of_step hc hstep) hlater hrest, hcarry, configurationNeverChanges s u hstep,
      State.acceptedIn_succ_of_next n hstep, List.flatMap_append, List.append_assoc]

end Sys2Proof.Machine

/-! PROOF. The steps of TX samples: `tx_step`, the draining queue and the stalled sink (R120, R127 to R129, R185, R191). -/

namespace Sys2Proof.Machine

/-- Settles O19: the sample's key is that of TX.RESET, TX.EMIT, TX.HOLD, TX.IDLE or a frame command, and each row is its arm of
`tx_step`. -/
theorem txSampleRunsTxStep : Obligations.TxSampleRunsTxStep := by
  intro s rst cmd ready rest hc hp
  rw [step_tx hc hp]
  cases txStep s.cfg rst (cmd.map (Cmd.onPort s.cfg)) ready s.tx <;> rfl

/-- While TX is busy a command presented is not taken (R127): the step depends on `out_ready` alone. -/
theorem step_tx_busy {s : State} {cmd : Option Cmd} {ready : Bool} {rest : List PortInput} (hc : s.cfg.wf = true)
    (hp : s.inputs = .tx false cmd ready :: rest) (hb : s.tx.busy = true) :
    step s = .next ({ s with inputs := rest }.commitTx (txDrain ready s.tx)) := by
  rw [step_tx hc hp, txStep_busy _ ready hb]; rfl

/-- As many ready steps as bytes are queued output the queue in order, and nothing else. -/
theorem runSteps_drain {cmd : Option Cmd} {rest : List PortInput} (q : List Byte) (s : State) (hc : s.cfg.wf = true) (hq : s.tx.q = q)
    (hp : s.inputs = List.replicate q.length (.tx false cmd true) ++ rest) :
    ∃ t, runSteps q.length s = .next t ∧ t.tx.q = [] ∧ t.wire = s.wire ++ q ∧ t.results = s.results ∧ t.rx = s.rx ∧
      t.inputs = rest := by
  induction q generalizing s with
  | nil => exact ⟨s, rfl, hq, (List.append_nil _).symm, rfl, rfl, hp⟩
  | cons b q ih =>
    have hpop : txDrain true s.tx = ⟨⟨q⟩, none, some b⟩ := by rw [txDrain, if_pos rfl, txPop, hq]
    rw [List.length_cons, List.replicate_succ, List.cons_append] at hp
    have hstep := step_tx_busy hc hp (TxState.busy_of_cons hq)
    rw [hpop] at hstep
    obtain ⟨t, hrun, hqueue, hwire, hresults, hrx, hinputs⟩ := ih _ (cfg_wf_of_step hc hstep) rfl rfl
    exact ⟨t, (runSteps_succ_of_next q.length hstep).trans hrun, hqueue, by simp [hwire], by simp [hresults], hrx, hinputs⟩

/-- Settles O55: the queue is what the steps output. -/
theorem queueDrainsInItsLength : Obligations.QueueDrainsInItsLength := fun s _ _ hc hp => runSteps_drain s.tx.q s hc rfl hp

/-- Settles O56, by induction on the number of steps: each keeps the queue, and so TX busy. -/
theorem stalledSinkKeepsTxBusy : Obligations.StalledSinkKeepsTxBusy := by
  intro n s hc hq hn hstall
  induction n generalizing s with
  | zero => exact ⟨s, rfl, rfl, rfl, rfl, rfl⟩
  | succ n ih =>
    obtain ⟨p, rest, hp⟩ := List.exists_cons_of_length_pos (Nat.zero_lt_of_lt hn)
    rw [hp] at hn hstall
    obtain ⟨hfirst, hlater⟩ := List.forall_mem_cons.1 hstall
    obtain ⟨cmd, rfl⟩ := hfirst
    have hstep := step_tx_busy hc hp (s.tx.busy_iff.2 hq)
    obtain ⟨t, hrun, htx, hwire, hresults, hrx⟩ := ih _ (cfg_wf_of_step hc hstep) hq (Nat.le_of_succ_le_succ hn) hlater
    exact ⟨t, (runSteps_succ_of_next n hstep).trans hrun, htx, hwire.trans (List.append_nil _), hresults.trans (List.append_nil _), hrx⟩

end Sys2Proof.Machine

/-! PROOF. The TX rows while TX is idle and while it is busy (R71, R121 to R130). -/

namespace Sys2Proof.Machine

theorem State.commitTx_txPop_cons {s : State} {b : Byte} {q : List Byte} (hq : s.tx.q = b :: q) :
    s.commitTx (txPop s.tx) = { s with tx := ⟨q⟩, res := none, out := some b, wire := s.wire ++ [b] } := by
  rw [txPop, hq]
  simp [State.commitTx]

theorem State.commitTx_txKeep (s : State) : s.commitTx (txKeep s.tx) = { s with res := none, out := none } := by
  simp [State.commitTx, txKeep]

/-- Settles O35: the row is `txPop`, which on an empty queue is `txKeep`. -/
theorem emitOutputsTheFirstByte : Obligations.EmitOutputsTheFirstByte := by
  refine fun s => ⟨fun b rest hq => congrArg _ (State.commitTx_txPop_cons hq), fun hq => ?_⟩
  rw [← s.commitTx_txKeep, ← txPop_idle (s.tx.idle_iff.2 hq)]
  rfl

/-- Settles O36: both rows are `txKeep` there. -/
theorem holdAndIdleOutputNothing : Obligations.HoldAndIdleOutputNothing := by
  refine fun s outReady => ⟨congrArg _ s.commitTx_txKeep, fun hq => ?_⟩
  have hidle : ¬ s.tx.busy = true := by simp [s.tx.idle_iff.2 hq]
  rw [← s.commitTx_txKeep]
  exact if_neg hidle

/-- Settles O33: while TX is idle the row reads neither operand. -/
theorem reservedCommandIsRefusedWhileIdle : Obligations.ReservedCommandIsRefusedWhileIdle :=
  fun s seq payload hq => execFrameRsvd_idle seq payload (s.tx.idle_iff.2 hq)

/-- Settles O34: on a busy TX each of the four rows is `txPop`, as the line carries `out_ready = 1`. -/
theorem commandWhileBusyIsNotTaken : Obligations.CommandWhileBusyIsNotTaken := by
  intro s seq payload b rest hq i hi
  have hb := TxState.busy_of_cons hq
  rw [← State.commitTx_txPop_cons hq]
  obtain rfl | rfl | rfl | rfl := hi
  · exact congrArg _ (State.frameLine_busy _ hb)
  · exact congrArg _ (State.frameLine_busy _ hb)
  · exact congrArg _ (State.frameLine_busy _ hb)
  · exact if_pos hb

/-- The TX.FRAME line of a packet that is too long, while TX is idle (R122). -/
theorem State.frameLine_tooLarge {s : State} {p : Packet} (hq : s.tx.q = []) (hlen : s.cfg.MAX < p.payload.length) :
    s.frameLine p = s.commitTx ⟨s.tx, some .payloadTooLarge, none⟩ := by
  have htx : s.tx = ⟨[]⟩ := congrArg TxState.mk hq
  rw [State.frameLine_idle p (s.tx.idle_iff.2 hq), txAccept, if_pos hlen, htx]

/-- A step with a result and no byte adds the result to the history. -/
theorem State.commitTx_result (s : State) (t : TxState) (r : Result) : s.commitTx ⟨t, some r, none⟩ =
    { s with tx := t, res := some r, out := none, results := s.results ++ [r] } := by
  simp [State.commitTx]

/-- Settles O32: each of the three rows is the TX.FRAME line of the packet of its type. -/
theorem frameCommandQueuesTheFrame : Obligations.FrameCommandQueuesTheFrame := by
  refine ⟨rfl, rfl, fun s seq payload hq i typeByte hi => ?_⟩
  have hrow : ∃ t : PacketType, t.typeByte = typeByte ∧ exec i s = .next (s.frameLine ⟨t, seq, payload⟩) := by
    obtain ⟨rfl, rfl⟩ | ⟨rfl, rfl⟩ | ⟨rfl, rfl⟩ := hi
    · exact ⟨.data, rfl, rfl⟩
    · exact ⟨.ack, rfl, rfl⟩
    · exact ⟨.nack, rfl, rfl⟩
  obtain ⟨t, rfl, hexec⟩ := hrow
  rw [hexec]
  constructor
  · intro hlen
    rw [State.frameLine_accepted hq hlen, State.commitTx_result]
    rfl
  · intro hlen
    rw [State.frameLine_tooLarge hq hlen, State.commitTx_result]

end Sys2Proof.Machine

/-! PROOF. The length of a frame and its bounds (R7, R121, R132). -/

namespace Sys2Proof.Machine

theorem Packet.length_frame {c : Cfg} (hc : c.wf = true) (p : Packet) :
    (p.frame c).length = 2 + c.HDR + p.payload.length + (p.body c).countP c.isReserved := by
  simp only [Packet.frame, List.length_append, List.length_singleton, Cfg.length_escape, p.length_body hc]
  omega

/-- Where no TYPE byte is reserved a frame never reaches FRAME_MAX: its TYPE byte is output as one byte. -/
theorem Packet.length_frame_lt {c : Cfg} (hc : c.wf = true) {p : Packet} (htype : c.isReserved p.type.typeByte = false)
    (hlen : p.payload.length ≤ c.MAX) : (p.frame c).length < c.FRAME_MAX := by
  obtain ⟨rest, hbody⟩ : ∃ rest, p.body c = p.type.typeByte :: rest := ⟨_, List.cons_append⟩
  have hrest : rest.length + 1 = c.HDR + p.payload.length := by rw [← p.length_body hc, hbody, List.length_cons]
  have hcount : rest.countP c.isReserved ≤ rest.length := List.countP_le_length
  rw [p.length_frame hc, hbody, List.countP_cons_of_neg (by simp [htype]), Cfg.FRAME_MAX, Cfg.BODY_MAX]
  omega

theorem PacketType.typeByte_not_reserved_cfgDef (t : PacketType) : cfgDef.isReserved t.typeByte = false := by
  cases t <;> rfl

/-- Under CFG_DEF: no payload, and no reserved byte in the body. -/
def shortestFramePacket : Packet := ⟨.data, 0, []⟩

/-- Under CFG_DEF: a payload of `MAX` bytes, and every body byte but TYPE reserved, the two checksum bytes 0x7C, 0x7C included. -/
def longestFramePacket : Packet := ⟨.data, 0x7D, List.replicate 13 0x7E#8 ++ List.replicate 50 0x7C#8 ++ [0x7D#8]⟩

/-- Settles O58: `esc` adds one byte for each reserved byte of the body, of which TYPE is none under CFG_DEF. -/
theorem frameLengthsAreBounded : Obligations.FrameLengthsAreBounded := by
  have hdef : cfgDef.wf = true := by decide
  refine ⟨fun c p hc hp => ⟨p.length_frame hc, Packet.length_frame_le hc (Packet.wf_iff.1 hp).2⟩, fun p hp => ⟨?_, ?_⟩,
    ⟨shortestFramePacket, by decide, by decide +kernel⟩, ⟨longestFramePacket, by decide, by decide +kernel⟩⟩
  · have hhdr : cfgDef.HDR = 4 := rfl
    rw [p.length_frame hdef, hhdr]
    omega
  · exact Nat.le_of_lt_succ (Packet.length_frame_lt hdef p.type.typeByte_not_reserved_cfgDef (Packet.wf_iff.1 hp).2)

end Sys2Proof.Machine

/-! PROOF. The checksum engine: values, width and detection (R141, R144 to R146). -/

namespace Sys2Proof

/-- Property 3 of R141 for a configuration whose checksum meets the contract at some width. -/
theorem Cfg.detectsSingleByte_of_meetsContract {c : Cfg} {w : Nat} (h : MeetsContract c.check w) : c.DetectsSingleByte :=
  h.detects

namespace Machine

/-- Settles O10: CRC16_1021 and the sum meet the contract of R141 whatever `CW` is, and condition 5 of R6 is that contract. -/
theorem checksumsDetectSingleByteChange : Obligations.ChecksumsDetectSingleByteChange := by
  refine ⟨fun c hk => ?_, fun c hc => Cfg.detectsSingleByte_of_meetsContract (c.wf_iff_meetsR6.1 hc).check⟩
  obtain hcrc | hsum := hk
  · exact Cfg.detectsSingleByte_of_meetsContract (Cfg.check_crc16 hcrc ▸ crc16Bytes_meetsContract)
  · exact Cfg.detectsSingleByte_of_meetsContract (Cfg.check_sum8 hsum ▸ sum8_meetsContract)

/-- Settles O9: the CRC evaluates on each of the ten inputs. -/
theorem crcValuesOfTheTable : Obligations.CrcValuesOfTheTable := by
  unfold Obligations.CrcValuesOfTheTable
  decide +kernel

/-- Settles O11: condition 5 of R6 is the contract of R141, whose property 2 is the width. -/
theorem checksumHasFixedWidth : Obligations.ChecksumHasFixedWidth := fun _ l hc => Cfg.length_check hc l

end Machine

end Sys2Proof

/-! PROOF. The only input a built block is refused on (R108, R126, R155). -/

namespace Sys2Proof.Machine

theorem State.txOutcome_eq_refused {s : State} {o : Option TxOut} {r : Refusal} :
    s.txOutcome o = .refused r ↔ r = .reservedCmdType ∧ o = none := by
  cases o with
  | none => simp [State.txOutcome, eq_comm]
  | some u => simp [State.txOutcome]

/-- Of the four codes of `cmd_type`, 3 alone asks for no packet (R126). -/
theorem Cmd.packet?_eq_none {c : Cfg} {k : Cmd} : k.packet? c = none ↔ k.type = 3#2 := by
  have hcode : ∀ x : BitVec 2, x ≠ 0#2 → x ≠ 1#2 → x ≠ 2#2 → x = 3#2 := by decide
  unfold Cmd.packet?
  split_ifs with h0 h1 h2
  · simp [h0]
  · simp [h1]
  · simp [h2]
  · exact iff_of_true rfl (hcode _ h0 h1 h2)

/-- `tx_step` has no result on a reserved command presented without reset while TX is idle, and on nothing else (R120, R126). -/
theorem txStep_eq_none {c : Cfg} {rst ready : Bool} {cmd : Option Cmd} {t : TxState} :
    txStep c rst (cmd.map (Cmd.onPort c)) ready t = none ↔ rst = false ∧ t.q = [] ∧ ∃ k, cmd = some k ∧ k.type = 3#2 := by
  cases rst with
  | true => simp [txStep]
  | false =>
    cases hb : t.busy with
    | true => simp [txStep_busy _ _ hb, t.busy_iff.1 hb]
    | false =>
      cases cmd with
      | none => simp [txStep_none]
      | some k => simp [txStep_idle_cmd k ready hb, t.idle_iff.1 hb, Cmd.packet?_eq_none]

/-- Settles O21: a quiet port and an RX sample commit an `rx_step`, which always has a result, so a refusal is that of `tx_step`. -/
theorem onlyReservedCommandsAreRefused : Obligations.OnlyReservedCommandsAreRefused := by
  intro s r hc
  cases hp : s.inputs with
  | nil => simp [step_of_no_sample hc hp]
  | cons p rest =>
    cases hk : p.forRx with
    | true =>
      obtain ⟨rst, byte, hstep⟩ := step_forRx hk s.cfg
      rw [hstep s rest rfl hc hp]
      have hnot : ∀ k ready, p ≠ .tx false (some k) ready := by rintro k ready rfl; cases hk
      simp [hnot]
    | false =>
      obtain ⟨rst, cmd, ready, rfl⟩ := PortInput.eq_tx_of_not_forRx hk
      rw [step_tx hc hp, State.txOutcome_eq_refused, txStep_eq_none]
      constructor
      · rintro ⟨hr, rfl, hq, k, rfl, htype⟩
        exact ⟨hr, hq, k, ready, rest, rfl, htype⟩
      · rintro ⟨hr, hq, k, _, _, hsample, htype⟩
        cases hsample
        exact ⟨hr, rfl, hq, k, rfl, htype⟩

end Sys2Proof.Machine

/-! PROOF. The power-on state and the two resets (R33, R176, R177, R179). -/

namespace Sys2Proof.Machine

/-- An unwritten cell reads as its unspecified contents (R33; log 6). -/
theorem Memory.get_of_read_eq_none {m : Memory} {i : Nat} (h : m.read i = none) : m.get i = Config.bufPowerOn i := by
  rw [Memory.get, h, Option.getD_none]

/-- Settles O12: each field of `State.powerOn` is its R33 value, and as the buffer lists no cell, every cell reads as unwritten. -/
theorem powerOnState : Obligations.PowerOnState := by
  refine ⟨rfl, fun c => ⟨rfl, rfl, rfl, fun i => ?_, rfl, rfl, rfl, rfl, rfl⟩⟩
  have hread : (State.powerOn c).rx.buf.read i = none := rfl
  exact ⟨hread, Memory.get_of_read_eq_none hread⟩

/-- Settles O31: the rule reads neither the sequencer state nor `rx_valid`, and has no event. -/
theorem rxResetDiscardsTheFrameSilently : Obligations.RxResetDiscardsTheFrameSilently := fun s _ =>
  congrArg _ (s.commitRx_silent ⟨.waitStart, 0, s.rx.buf⟩)

theorem State.commitTx_txClear (s : State) : s.commitTx (txClear s.tx) = { s with tx := ⟨[]⟩, res := none, out := none } := by
  simp [State.commitTx, txClear]

/-- Settles O37: the row is `txClear` in every state, with no result and no byte to add to the histories. -/
theorem txResetEmptiesTheQueue : Obligations.TxResetEmptiesTheQueue := fun s _ => congrArg _ s.commitTx_txClear

end Sys2Proof.Machine
